-- ==== Sys2Proof/Word.lean ====
section
/-! DEFINITION. The word types of the two buses and of the event encoding. -/

namespace Sys2Proof

/-- One byte: every access of the block is one byte (R54). -/
abbrev Byte := BitVec 8

/-- An address of the CPU space, 16 bits (R50). -/
abbrev CpuAddr := BitVec 16

/-- An address of the PPU space, 14 bits (R50). -/
abbrev PpuAddr := BitVec 14

/-- An event word `kind[27:24] ++ addr[23:8] ++ data[7:0]` (R70). -/
abbrev EventWord := BitVec 28

end Sys2Proof
end

