-- ==== Sys2Proof/Config.lean ====
section
/-! DEFINITION. What is fixed for one block: the parameters of R6, the cartridge, and the one free value
(the power-on contents of the storages). No event changes any of it (R13). -/

namespace Sys2Proof

/-- The closed sum of the eight mapper variants (R1, R244). -/
inductive Mapper where
  | m0 | m1 | m2 | m3 | m4 | m7 | m66 | m140
deriving DecidableEq, Repr

/-- `HW_MIRROR`, the cartridge's hard wiring (R6). -/
inductive HwMirror where
  | horizontal | vertical
deriving DecidableEq, Repr

/-- The values of the observation `MirrorMode` (R246). -/
inductive MirrorMode where
  | horizontal | vertical | oneScreenLo | oneScreenHi
deriving DecidableEq, Repr

/-- The three storages (R52). -/
inductive Space where
  | prg | chr | sram
deriving DecidableEq, Repr

/-- `SWEEP_ONES_ADJ`: +1, the document's formula, or -1, its nickname (R6, R136). -/
inductive OnesAdj where
  | plus | minus
deriving DecidableEq, Repr

/-- One entry of a frame sequencer schedule: the half-cycle count and what happens there (R175, R176). -/
structure ScheduleEntry where
  count     : Nat
  quarter   : Bool
  half      : Bool
  interrupt : Bool
  wrap      : Bool
deriving DecidableEq, Repr

/-- `MIN_PERIOD[ch]` (R6, R22). -/
structure MinPeriod where
  pulse1   : Nat
  pulse2   : Nat
  triangle : Nat
  noise    : Nat
deriving DecidableEq, Repr

/-- The parameters of R6 that do not describe the cartridge. `duty` holds a row as a byte whose bit
`step` is `DUTY[duty][step]`. -/
structure Params where
  apuDiv                  : Nat
  minPeriod               : MinPeriod
  noisePeriod             : Vector (BitVec 12) 16
  sweepOnesAdj            : OnesAdj
  duty                    : Vector (BitVec 8) 4
  pulsePhaseReset         : Bool
  fs5                     : List ScheduleEntry
  m4ZeroReloadNeedsEnable : Bool
deriving DecidableEq, Repr

/-- The cartridge parameters of R6 other than `MAPPER` (the constructor of the mapper state) and the
storage contents (memories of State). -/
structure Cartridge where
  prgChunks : Nat
  chrChunks : Nat
  hwMirror  : HwMirror
deriving DecidableEq, Repr

/-- FREE VALUE: the byte a storage holds at an offset that nothing has loaded or written since power-on
(`PRG`, `CHR_INIT`, `SRAM_INIT` have no default: R6, R39, 93_implementation_defined U3). No body, so no
proof can see it. Log 5. -/
opaque Config.powerOnByte : Space → Nat → Byte

end Sys2Proof
end

