-- ==== Sys2Proof/Syntax.lean ====
section
/-! DEFINITION. The 64 operations, one constructor per row of spec/opcode_table.json, with the row's
operand fields. A bus address operand is the whole address where the rule's pseudocode uses it. -/

namespace Sys2Proof

/-- The four bus kinds, event kinds 0 to 3 (R70). -/
inductive BusKind where
  | cpuw | cpur | ppuw | ppur
deriving DecidableEq, Repr

inductive Instr where
  -- pulse channel 1 (R200 to R203)
  | w4000 (duty : BitVec 2) (haltloop const : Bool) (level : BitVec 4)
  | w4001 (en : Bool) (period : BitVec 3) (neg : Bool) (shift : BitVec 3)
  | w4002 (tlow : Byte)
  | w4003 (lenidx : BitVec 5) (thigh : BitVec 3)
  -- pulse channel 2 (R204 to R207)
  | w4004 (duty : BitVec 2) (haltloop const : Bool) (level : BitVec 4)
  | w4005 (en : Bool) (period : BitVec 3) (neg : Bool) (shift : BitVec 3)
  | w4006 (tlow : Byte)
  | w4007 (lenidx : BitVec 5) (thigh : BitVec 3)
  -- triangle channel (R208 to R210)
  | w4008 (control : Bool) (reload : BitVec 7)
  | w4009
  | w400A (tlow : Byte)
  | w400B (lenidx : BitVec 5) (thigh : BitVec 3)
  -- noise channel (R211, R213, R214)
  | w400C (haltloop const : Bool) (level : BitVec 4)
  | w400D
  | w400E (mode : Bool) (pidx : BitVec 4)
  | w400F (lenidx : BitVec 5)
  -- ignored addresses (R217)
  | w4010
  | w4011
  | w4012
  | w4013
  -- enable, frame control, status (R212, R216, R215)
  | w4015 (noise triangle pulse2 pulse1 : Bool)
  | w4017 (mode inhibit : Bool)
  | r4015
  -- clock and control events (R190, R307, R248, R350, R182, R308)
  | mclk
  | scanline
  | scanlineInert
  | reset
  | ackapu
  | ackmap
  | ackmapInert
  -- mapper 4 (R296 to R306)
  | m4Banksel (chrMode prgMode : Bool) (target : BitVec 3)
  | m4Bankdata (d : Byte)
  | m4Mirror (mirror : Bool)
  | m4Ramprot
  | m4Irqlatch (d : Byte)
  | m4Irqreload
  | m4Irqdis
  | m4Irqen
  | m4Sramw (offset : BitVec 13) (d : Byte)
  | m4Sramr (offset : BitVec 13)
  | m4Cpur (a : CpuAddr)
  | m4Ppur (a : PpuAddr)
  -- mapper 1 (R283 to R287)
  | m1Load (sel : BitVec 2) (rst d : Bool)
  | m1Sramw (offset : BitVec 13) (d : Byte)
  | m1Sramr (offset : BitVec 13)
  | m1Cpur (a : CpuAddr)
  | m1Ppur (a : PpuAddr)
  -- mappers 0, 2, 3, 7, 66, 140 (R250 to R264)
  | m0Cpur (a : CpuAddr)
  | m0Ppur (a : PpuAddr)
  | m2Bank (prg : BitVec 4)
  | m2Cpur (a : CpuAddr)
  | m2Ppur (a : PpuAddr)
  | m3Bank (chr : BitVec 2)
  | m3Cpur (a : CpuAddr)
  | m3Ppur (a : PpuAddr)
  | m7Bank (mirror : Bool) (prg : BitVec 3)
  | m7Cpur (a : CpuAddr)
  | m7Ppur (a : PpuAddr)
  | m66Bank (prg chr : BitVec 2)
  | m140Bank (prg chr : BitVec 2)
  | m66Cpur (a : CpuAddr)
  | m66Ppur (a : PpuAddr)
  -- every mapper (R247, R90)
  | mapPpuw (a : PpuAddr) (d : Byte)
  | nopNotmine (kind : BusKind) (addr : BitVec 16) (data : Byte)
deriving DecidableEq, Repr

end Sys2Proof
end

