-- ==== Sys2Proof/WellFormed.lean ====
section
/-! DEFINITION. Which operations a block with a given mapper has: the row exists for the variant (R94), the
address operand lies in the row's range, and `NOP.NOTMINE` names a transaction nobody claims (R51, R90). -/

namespace Sys2Proof

/-- The APU register addresses whose write the block claims, 0x4000 to 0x4013, 0x4015, 0x4017 (R51, R193). -/
def apuWriteAddr (a : CpuAddr) : Bool :=
  (0x4000#16 ≤ a && a ≤ 0x4013#16) || a = 0x4015#16 || a = 0x4017#16

/-- 0x8000 and above (R51). -/
def cartAddr (a : CpuAddr) : Bool := 0x8000#16 ≤ a

/-- 0x6000 to 0x7FFF, the save-memory range (R51). -/
def saveAddr (a : CpuAddr) : Bool := 0x6000#16 ≤ a && a ≤ 0x7FFF#16

/-- Below 0x2000, the pattern-table range of the PPU space (R50). -/
def patternAddr (a : PpuAddr) : Bool := a < 0x2000#14

/-- The variants that have save memory (R39). -/
def Mapper.hasSram (m : Mapper) : Bool := m = .m1 || m = .m4

/-- The variants that decode a write at 0x8000 and above as a register write (R51, R86). -/
def Mapper.hasBankPort (m : Mapper) : Bool := !(m = .m0 || m = .m140)

/-- Some row other than `NOP.NOTMINE` claims the transaction (R51, R86, R89, R94). -/
def claimed (m : Mapper) (kind : BusKind) (addr : BitVec 16) : Bool :=
  match kind with
  | .cpuw => apuWriteAddr addr || (m.hasBankPort && cartAddr addr) || ((m.hasSram || m = .m140) && saveAddr addr)
  | .cpur => addr = 0x4015#16 || cartAddr addr || (m.hasSram && saveAddr addr)
  | .ppuw | .ppur => addr < 0x2000#16

/-- A bus word the decoder takes at all: a PPU address has 14 bits (R70, R71). -/
def busWordOk (kind : BusKind) (addr : BitVec 16) : Bool :=
  match kind with
  | .cpuw | .cpur => true
  | .ppuw | .ppur => addr ≤ 0x3FFF#16

/-- The operation exists on a block whose `MAPPER` is `m`, with these operands. -/
def wellFormed (m : Mapper) : Instr → Bool
  | .w4000 .. | .w4001 .. | .w4002 .. | .w4003 .. | .w4004 .. | .w4005 .. | .w4006 .. | .w4007 ..
  | .w4008 .. | .w4009 | .w400A .. | .w400B .. | .w400C .. | .w400D | .w400E .. | .w400F ..
  | .w4010 | .w4011 | .w4012 | .w4013 | .w4015 .. | .w4017 .. | .r4015
  | .mclk | .reset | .ackapu => true
  | .scanline | .ackmap => m = .m4
  | .scanlineInert | .ackmapInert => m ≠ .m4
  | .m4Banksel .. | .m4Bankdata .. | .m4Mirror .. | .m4Ramprot | .m4Irqlatch .. | .m4Irqreload
  | .m4Irqdis | .m4Irqen | .m4Sramw .. | .m4Sramr .. => m = .m4
  | .m4Cpur a => m = .m4 && cartAddr a
  | .m4Ppur a => m = .m4 && patternAddr a
  | .m1Load .. | .m1Sramw .. | .m1Sramr .. => m = .m1
  | .m1Cpur a => m = .m1 && cartAddr a
  | .m1Ppur a => m = .m1 && patternAddr a
  | .m0Cpur a => m = .m0 && cartAddr a
  | .m0Ppur a => m = .m0 && patternAddr a
  | .m2Bank .. => m = .m2
  | .m2Cpur a => m = .m2 && cartAddr a
  | .m2Ppur a => m = .m2 && patternAddr a
  | .m3Bank .. => m = .m3
  | .m3Cpur a => m = .m3 && cartAddr a
  | .m3Ppur a => m = .m3 && patternAddr a
  | .m7Bank .. => m = .m7
  | .m7Cpur a => m = .m7 && cartAddr a
  | .m7Ppur a => m = .m7 && patternAddr a
  | .m66Bank .. => m = .m66
  | .m140Bank .. => m = .m140
  | .m66Cpur a => (m = .m66 || m = .m140) && cartAddr a
  | .m66Ppur a => (m = .m66 || m = .m140) && patternAddr a
  | .mapPpuw a _ => patternAddr a
  | .nopNotmine kind addr _ => busWordOk kind addr && !claimed m kind addr

end Sys2Proof
end

