-- ==== Sys2Proof/Decode.lean ====
section
/-! DEFINITION. The total decoder from event words to operations (R70 to R91), the encoder, and the opcode
table as a list of mask and match rows with the table-driven selection of R94. -/

namespace Sys2Proof

/-- Why a word is no event (R71). -/
inductive DecodeError where
  /-- kinds 9 to 15 -/
  | kindNotAnEvent
  /-- a `PPUW` or `PPUR` word with `addr[15:14] != 0` -/
  | ppuAddressTooWide
deriving DecidableEq, Repr

/-- The mapper of the cartridge of `State.reset`, on which `decodeTableWord` reads a word (DESIGN CHOICE, logs 2 and 15). -/
def resetMapper : Mapper := .m4

/-! ### Decoding -/

/-- Fields of an event word (R70). -/
def eventKind (w : EventWord) : BitVec 4 := w.extractLsb' 24 4
def eventAddr (w : EventWord) : BitVec 16 := w.extractLsb' 8 16
def eventData (w : EventWord) : Byte := w.extractLsb' 0 8

/-- The APU's write decoder: all 16 address bits (R72), data cut by position (R73 to R85). -/
def decodeApuWrite (a : CpuAddr) (d : Byte) : Option Instr :=
  if a = 0x4000#16 then some (.w4000 (d.extractLsb' 6 2) (d.getLsbD 5) (d.getLsbD 4) (d.extractLsb' 0 4))
  else if a = 0x4001#16 then some (.w4001 (d.getLsbD 7) (d.extractLsb' 4 3) (d.getLsbD 3) (d.extractLsb' 0 3))
  else if a = 0x4002#16 then some (.w4002 d)
  else if a = 0x4003#16 then some (.w4003 (d.extractLsb' 3 5) (d.extractLsb' 0 3))
  else if a = 0x4004#16 then some (.w4004 (d.extractLsb' 6 2) (d.getLsbD 5) (d.getLsbD 4) (d.extractLsb' 0 4))
  else if a = 0x4005#16 then some (.w4005 (d.getLsbD 7) (d.extractLsb' 4 3) (d.getLsbD 3) (d.extractLsb' 0 3))
  else if a = 0x4006#16 then some (.w4006 d)
  else if a = 0x4007#16 then some (.w4007 (d.extractLsb' 3 5) (d.extractLsb' 0 3))
  else if a = 0x4008#16 then some (.w4008 (d.getLsbD 7) (d.extractLsb' 0 7))
  else if a = 0x4009#16 then some .w4009
  else if a = 0x400A#16 then some (.w400A d)
  else if a = 0x400B#16 then some (.w400B (d.extractLsb' 3 5) (d.extractLsb' 0 3))
  else if a = 0x400C#16 then some (.w400C (d.getLsbD 5) (d.getLsbD 4) (d.extractLsb' 0 4))
  else if a = 0x400D#16 then some .w400D
  else if a = 0x400E#16 then some (.w400E (d.getLsbD 7) (d.extractLsb' 0 4))
  else if a = 0x400F#16 then some (.w400F (d.extractLsb' 3 5))
  else if a = 0x4010#16 then some .w4010
  else if a = 0x4011#16 then some .w4011
  else if a = 0x4012#16 then some .w4012
  else if a = 0x4013#16 then some .w4013
  else if a = 0x4015#16 then some (.w4015 (d.getLsbD 3) (d.getLsbD 2) (d.getLsbD 1) (d.getLsbD 0))
  else if a = 0x4017#16 then some (.w4017 (d.getLsbD 7) (d.getLsbD 6))
  else none

/-- Mapper 4's register of a write at 0x8000 and above, by `addr & 0xE001` (R88). -/
def decodeM4Write (a : CpuAddr) (d : Byte) : Instr :=
  if a.extractLsb' 13 2 = 0#2 then
    if a.getLsbD 0 then .m4Bankdata d else .m4Banksel (d.getLsbD 7) (d.getLsbD 6) (d.extractLsb' 0 3)
  else if a.extractLsb' 13 2 = 1#2 then
    if a.getLsbD 0 then .m4Ramprot else .m4Mirror (d.getLsbD 0)
  else if a.extractLsb' 13 2 = 2#2 then
    if a.getLsbD 0 then .m4Irqreload else .m4Irqlatch d
  else
    if a.getLsbD 0 then .m4Irqen else .m4Irqdis

/-- A write with `addr[15] = 1`, per variant (R86). -/
def decodeBankWrite (m : Mapper) (a : CpuAddr) (d : Byte) : Instr :=
  match m with
  | .m0 => .nopNotmine .cpuw a d
  | .m1 => .m1Load (a.extractLsb' 13 2) (d.getLsbD 7) (d.getLsbD 0)
  | .m2 => .m2Bank (d.extractLsb' 0 4)
  | .m3 => .m3Bank (d.extractLsb' 0 2)
  | .m4 => decodeM4Write a d
  | .m7 => .m7Bank (d.getLsbD 4) (d.extractLsb' 0 3)
  | .m66 => .m66Bank (d.extractLsb' 4 2) (d.extractLsb' 0 2)
  | .m140 => .nopNotmine .cpuw a d

/-- A write with `addr[15:13] = 0b011`, the save-memory range (R86, R287, R302). -/
def decodeSaveWrite (m : Mapper) (a : CpuAddr) (d : Byte) : Instr :=
  match m with
  | .m1 => .m1Sramw (a.extractLsb' 0 13) d
  | .m4 => .m4Sramw (a.extractLsb' 0 13) d
  | .m140 => .m140Bank (d.extractLsb' 4 2) (d.extractLsb' 0 2)
  | .m0 | .m2 | .m3 | .m7 | .m66 => .nopNotmine .cpuw a d

/-- Event kind 0. The ranges are disjoint (R59). -/
def decodeCpuw (m : Mapper) (a : CpuAddr) (d : Byte) : Instr :=
  if a.getLsbD 15 then decodeBankWrite m a d
  else if a.extractLsb' 13 3 = 0b011#3 then decodeSaveWrite m a d
  else (decodeApuWrite a d).getD (.nopNotmine .cpuw a d)

/-- A read with `addr[15] = 1`: every variant answers from `PRG` (R51). -/
def decodeCartRead (m : Mapper) (a : CpuAddr) : Instr :=
  match m with
  | .m0 => .m0Cpur a
  | .m1 => .m1Cpur a
  | .m2 => .m2Cpur a
  | .m3 => .m3Cpur a
  | .m4 => .m4Cpur a
  | .m7 => .m7Cpur a
  | .m66 | .m140 => .m66Cpur a

/-- A read of the save-memory range (R287, R302, R248, R264). -/
def decodeSaveRead (m : Mapper) (a : CpuAddr) (d : Byte) : Instr :=
  match m with
  | .m1 => .m1Sramr (a.extractLsb' 0 13)
  | .m4 => .m4Sramr (a.extractLsb' 0 13)
  | .m0 | .m2 | .m3 | .m7 | .m66 | .m140 => .nopNotmine .cpur a d

/-- Event kind 1. The only readable APU address is 0x4015 (R90, R193). -/
def decodeCpur (m : Mapper) (a : CpuAddr) (d : Byte) : Instr :=
  if a.getLsbD 15 then decodeCartRead m a
  else if a.extractLsb' 13 3 = 0b011#3 then decodeSaveRead m a d
  else if a = 0x4015#16 then .r4015
  else .nopNotmine .cpur a d

/-- Event kind 2 with `addr[15:14] = 0`: the row `MAP.PPUW` below 0x2000 on every variant (R247; log 13). -/
def decodePpuw (a : BitVec 16) (d : Byte) : Instr :=
  if a.getLsbD 13 then .nopNotmine .ppuw a d else .mapPpuw (a.extractLsb' 0 14) d

/-- A pattern-table read, per variant (R251, R254, R257, R260, R263, R285, R299). -/
def decodePatternRead (m : Mapper) (a : PpuAddr) : Instr :=
  match m with
  | .m0 => .m0Ppur a
  | .m1 => .m1Ppur a
  | .m2 => .m2Ppur a
  | .m3 => .m3Ppur a
  | .m4 => .m4Ppur a
  | .m7 => .m7Ppur a
  | .m66 | .m140 => .m66Ppur a

/-- Event kind 3 with `addr[15:14] = 0`. -/
def decodePpur (m : Mapper) (a : BitVec 16) (d : Byte) : Instr :=
  if a.getLsbD 13 then .nopNotmine .ppur a d else decodePatternRead m (a.extractLsb' 0 14)

/-- The events of kinds 4 to 8; their address and data are not checked (R71). -/
def decodeEvt (m : Mapper) (kind : BitVec 4) : Except DecodeError Instr :=
  if kind = 4#4 then .ok .mclk
  else if kind = 5#4 then .ok (if m = .m4 then .scanline else .scanlineInert)
  else if kind = 6#4 then .ok .reset
  else if kind = 7#4 then .ok .ackapu
  else if kind = 8#4 then .ok (if m = .m4 then .ackmap else .ackmapInert)
  else .error .kindNotAnEvent

/-- The decoder: total, and its meaning depends on nothing but the word and `MAPPER` (R70, R71). -/
def decode (m : Mapper) (w : EventWord) : Except DecodeError Instr :=
  if eventKind w = 0#4 then .ok (decodeCpuw m (eventAddr w) (eventData w))
  else if eventKind w = 1#4 then .ok (decodeCpur m (eventAddr w) (eventData w))
  else if eventKind w = 2#4 then
    if (eventAddr w).extractLsb' 14 2 = 0#2 then .ok (decodePpuw (eventAddr w) (eventData w))
    else .error .ppuAddressTooWide
  else if eventKind w = 3#4 then
    if (eventAddr w).extractLsb' 14 2 = 0#2 then .ok (decodePpur m (eventAddr w) (eventData w))
    else .error .ppuAddressTooWide
  else decodeEvt m (eventKind w)

/-- The host's reading of an opcode-table word: the low 28 bits are the event word, read on the cartridge of
`State.reset` (log 15). -/
def decodeTableWord (nbits w : Nat) : Option Instr :=
  match decode resetMapper (BitVec.ofNat 28 (w % 2 ^ nbits)) with
  | .ok i => some i
  | .error _ => none

/-! ### Encoding: ignored data bits, and address bits a partial decode ignores, are written 0 (log 23) -/

/-- The event word of a kind, an address and a data byte (R70). -/
def eventWord (kind : BitVec 4) (addr : BitVec 16) (data : Byte) : EventWord := kind ++ addr ++ data

/-- A processor write (kind 0). -/
def cpuwWord (a : CpuAddr) (d : Byte) : EventWord := eventWord 0#4 a d

/-- A processor read (kind 1), data 0. -/
def cpurWord (a : CpuAddr) : EventWord := eventWord 1#4 a 0#8

/-- A rendering-unit write (kind 2): the 14-bit address in `addr[13:0]`. -/
def ppuwWord (a : PpuAddr) (d : Byte) : EventWord := eventWord 2#4 (0#2 ++ a) d

/-- A rendering-unit read (kind 3), data 0. -/
def ppurWord (a : PpuAddr) : EventWord := eventWord 3#4 (0#2 ++ a) 0#8

/-- An event of kinds 4 to 8, address and data 0. -/
def evtWord (kind : BitVec 4) : EventWord := eventWord kind 0#16 0#8

/-- The kind number of a bus transaction (R70). -/
def busKindNumber : BusKind → BitVec 4
  | .cpuw => 0#4
  | .cpur => 1#4
  | .ppuw => 2#4
  | .ppur => 3#4

/-- One bit as a 1-bit field. -/
abbrev bit (b : Bool) : BitVec 1 := BitVec.ofBool b

/-- The data byte of the "duty/halt/envelope" register (R74). -/
def dutyEnvelopeByte (duty : BitVec 2) (haltloop const : Bool) (level : BitVec 4) : Byte :=
  duty ++ bit haltloop ++ bit const ++ level

/-- The data byte of the "sweep setup" register (R75). -/
def sweepByte (en : Bool) (period : BitVec 3) (neg : Bool) (shift : BitVec 3) : Byte :=
  bit en ++ period ++ bit neg ++ shift

/-- The data byte of a "timer-high+length-load+restart" register (R77). -/
def timerHighByte (lenidx : BitVec 5) (thigh : BitVec 3) : Byte := lenidx ++ thigh

/-- The data byte of the mapper 66 and 140 bank register (R86). -/
def bankPairByte (prg chr : BitVec 2) : Byte := 0#2 ++ prg ++ 0#2 ++ chr

/-- The address of a save-memory offset (R287). -/
def saveAddrOf (offset : BitVec 13) : CpuAddr := 0b011#3 ++ offset

/-- The event word of an operation. -/
def encode : Instr → EventWord
  | .w4000 duty haltloop const level => cpuwWord 0x4000#16 (dutyEnvelopeByte duty haltloop const level)
  | .w4001 en period neg shift => cpuwWord 0x4001#16 (sweepByte en period neg shift)
  | .w4002 tlow => cpuwWord 0x4002#16 tlow
  | .w4003 lenidx thigh => cpuwWord 0x4003#16 (timerHighByte lenidx thigh)
  | .w4004 duty haltloop const level => cpuwWord 0x4004#16 (dutyEnvelopeByte duty haltloop const level)
  | .w4005 en period neg shift => cpuwWord 0x4005#16 (sweepByte en period neg shift)
  | .w4006 tlow => cpuwWord 0x4006#16 tlow
  | .w4007 lenidx thigh => cpuwWord 0x4007#16 (timerHighByte lenidx thigh)
  | .w4008 control reload => cpuwWord 0x4008#16 (bit control ++ reload)
  | .w4009 => cpuwWord 0x4009#16 0#8
  | .w400A tlow => cpuwWord 0x400A#16 tlow
  | .w400B lenidx thigh => cpuwWord 0x400B#16 (timerHighByte lenidx thigh)
  | .w400C haltloop const level => cpuwWord 0x400C#16 (dutyEnvelopeByte 0#2 haltloop const level)
  | .w400D => cpuwWord 0x400D#16 0#8
  | .w400E mode pidx => cpuwWord 0x400E#16 (bit mode ++ 0#3 ++ pidx)
  | .w400F lenidx => cpuwWord 0x400F#16 (timerHighByte lenidx 0#3)
  | .w4010 => cpuwWord 0x4010#16 0#8
  | .w4011 => cpuwWord 0x4011#16 0#8
  | .w4012 => cpuwWord 0x4012#16 0#8
  | .w4013 => cpuwWord 0x4013#16 0#8
  | .w4015 noise triangle pulse2 pulse1 =>
      cpuwWord 0x4015#16 (0#4 ++ bit noise ++ bit triangle ++ bit pulse2 ++ bit pulse1)
  | .w4017 mode inhibit => cpuwWord 0x4017#16 (bit mode ++ bit inhibit ++ 0#6)
  | .r4015 => cpurWord 0x4015#16
  | .mclk => evtWord 4#4
  | .scanline => evtWord 5#4
  | .scanlineInert => evtWord 5#4
  | .reset => evtWord 6#4
  | .ackapu => evtWord 7#4
  | .ackmap => evtWord 8#4
  | .ackmapInert => evtWord 8#4
  | .m4Banksel chrMode prgMode target => cpuwWord 0x8000#16 (bit chrMode ++ bit prgMode ++ 0#3 ++ target)
  | .m4Bankdata d => cpuwWord 0x8001#16 d
  | .m4Mirror mirror => cpuwWord 0xA000#16 (0#7 ++ bit mirror)
  | .m4Ramprot => cpuwWord 0xA001#16 0#8
  | .m4Irqlatch d => cpuwWord 0xC000#16 d
  | .m4Irqreload => cpuwWord 0xC001#16 0#8
  | .m4Irqdis => cpuwWord 0xE000#16 0#8
  | .m4Irqen => cpuwWord 0xE001#16 0#8
  | .m4Sramw offset d => cpuwWord (saveAddrOf offset) d
  | .m4Sramr offset => cpurWord (saveAddrOf offset)
  | .m4Cpur a => cpurWord a
  | .m4Ppur a => ppurWord a
  | .m1Load sel rst d => cpuwWord (1#1 ++ sel ++ 0#13) (bit rst ++ 0#6 ++ bit d)
  | .m1Sramw offset d => cpuwWord (saveAddrOf offset) d
  | .m1Sramr offset => cpurWord (saveAddrOf offset)
  | .m1Cpur a => cpurWord a
  | .m1Ppur a => ppurWord a
  | .m0Cpur a => cpurWord a
  | .m0Ppur a => ppurWord a
  | .m2Bank prg => cpuwWord 0x8000#16 (0#4 ++ prg)
  | .m2Cpur a => cpurWord a
  | .m2Ppur a => ppurWord a
  | .m3Bank chr => cpuwWord 0x8000#16 (0#6 ++ chr)
  | .m3Cpur a => cpurWord a
  | .m3Ppur a => ppurWord a
  | .m7Bank mirror prg => cpuwWord 0x8000#16 (0#3 ++ bit mirror ++ 0#1 ++ prg)
  | .m7Cpur a => cpurWord a
  | .m7Ppur a => ppurWord a
  | .m66Bank prg chr => cpuwWord 0x8000#16 (bankPairByte prg chr)
  | .m140Bank prg chr => cpuwWord 0x6000#16 (bankPairByte prg chr)
  | .m66Cpur a => cpurWord a
  | .m66Ppur a => ppurWord a
  | .mapPpuw a d => ppuwWord a d
  | .nopNotmine kind addr data => eventWord (busKindNumber kind) addr data

/-! ### The opcode table (R94) -/

/-- A row of spec/opcode_table.json: a word `w` matches when `w & mask = pattern`; `variants` are the `MAPPER`
values for which the row exists. -/
structure OpcodeRow where
  mnemonic : String
  pattern  : EventWord
  mask     : EventWord
  variants : List Mapper
deriving DecidableEq, Repr

def allMappers : List Mapper := [.m0, .m1, .m2, .m3, .m4, .m7, .m66, .m140]
def otherThanFour : List Mapper := [.m0, .m1, .m2, .m3, .m7, .m66, .m140]

/-- Rows 1 to 16 of spec/opcode_table.json. -/
def opcodeRows1 : List OpcodeRow := [
  ⟨"W4000", 0x0400000#28, 0xFFFFF00#28, allMappers⟩,
  ⟨"W4001", 0x0400100#28, 0xFFFFF00#28, allMappers⟩,
  ⟨"W4002", 0x0400200#28, 0xFFFFF00#28, allMappers⟩,
  ⟨"W4003", 0x0400300#28, 0xFFFFF00#28, allMappers⟩,
  ⟨"W4004", 0x0400400#28, 0xFFFFF00#28, allMappers⟩,
  ⟨"W4005", 0x0400500#28, 0xFFFFF00#28, allMappers⟩,
  ⟨"W4006", 0x0400600#28, 0xFFFFF00#28, allMappers⟩,
  ⟨"W4007", 0x0400700#28, 0xFFFFF00#28, allMappers⟩,
  ⟨"W4008", 0x0400800#28, 0xFFFFF00#28, allMappers⟩,
  ⟨"W4009", 0x0400900#28, 0xFFFFF00#28, allMappers⟩,
  ⟨"W400A", 0x0400A00#28, 0xFFFFF00#28, allMappers⟩,
  ⟨"W400B", 0x0400B00#28, 0xFFFFF00#28, allMappers⟩,
  ⟨"W400C", 0x0400C00#28, 0xFFFFF00#28, allMappers⟩,
  ⟨"W400D", 0x0400D00#28, 0xFFFFF00#28, allMappers⟩,
  ⟨"W400E", 0x0400E00#28, 0xFFFFF00#28, allMappers⟩,
  ⟨"W400F", 0x0400F00#28, 0xFFFFF00#28, allMappers⟩]

/-- Rows 17 to 32 of spec/opcode_table.json. -/
def opcodeRows2 : List OpcodeRow := [
  ⟨"W4010", 0x0401000#28, 0xFFFFF00#28, allMappers⟩,
  ⟨"W4011", 0x0401100#28, 0xFFFFF00#28, allMappers⟩,
  ⟨"W4012", 0x0401200#28, 0xFFFFF00#28, allMappers⟩,
  ⟨"W4013", 0x0401300#28, 0xFFFFF00#28, allMappers⟩,
  ⟨"W4015", 0x0401500#28, 0xFFFFF00#28, allMappers⟩,
  ⟨"W4017", 0x0401700#28, 0xFFFFF00#28, allMappers⟩,
  ⟨"R4015", 0x1401500#28, 0xFFFFF00#28, allMappers⟩,
  ⟨"MCLK", 0x4000000#28, 0xF000000#28, allMappers⟩,
  ⟨"SCANLINE", 0x5000000#28, 0xF000000#28, [.m4]⟩,
  ⟨"SCANLINE.INERT", 0x5000000#28, 0xF000000#28, otherThanFour⟩,
  ⟨"RESET", 0x6000000#28, 0xF000000#28, allMappers⟩,
  ⟨"ACKAPU", 0x7000000#28, 0xF000000#28, allMappers⟩,
  ⟨"ACKMAP", 0x8000000#28, 0xF000000#28, [.m4]⟩,
  ⟨"ACKMAP.INERT", 0x8000000#28, 0xF000000#28, otherThanFour⟩,
  ⟨"M4.BANKSEL", 0x0800000#28, 0xFE00100#28, [.m4]⟩,
  ⟨"M4.BANKDATA", 0x0800100#28, 0xFE00100#28, [.m4]⟩]

/-- Rows 33 to 48 of spec/opcode_table.json. -/
def opcodeRows3 : List OpcodeRow := [
  ⟨"M4.MIRROR", 0x0A00000#28, 0xFE00100#28, [.m4]⟩,
  ⟨"M4.RAMPROT", 0x0A00100#28, 0xFE00100#28, [.m4]⟩,
  ⟨"M4.IRQLATCH", 0x0C00000#28, 0xFE00100#28, [.m4]⟩,
  ⟨"M4.IRQRELOAD", 0x0C00100#28, 0xFE00100#28, [.m4]⟩,
  ⟨"M4.IRQDIS", 0x0E00000#28, 0xFE00100#28, [.m4]⟩,
  ⟨"M4.IRQEN", 0x0E00100#28, 0xFE00100#28, [.m4]⟩,
  ⟨"M4.SRAMW", 0x0600000#28, 0xFE00000#28, [.m4]⟩,
  ⟨"M4.SRAMR", 0x1600000#28, 0xFE00000#28, [.m4]⟩,
  ⟨"M4.CPUR", 0x1800000#28, 0xF800000#28, [.m4]⟩,
  ⟨"M4.PPUR", 0x3000000#28, 0xFE00000#28, [.m4]⟩,
  ⟨"M1.LOAD", 0x0800000#28, 0xF800000#28, [.m1]⟩,
  ⟨"M1.SRAMW", 0x0600000#28, 0xFE00000#28, [.m1]⟩,
  ⟨"M1.SRAMR", 0x1600000#28, 0xFE00000#28, [.m1]⟩,
  ⟨"M1.CPUR", 0x1800000#28, 0xF800000#28, [.m1]⟩,
  ⟨"M1.PPUR", 0x3000000#28, 0xFE00000#28, [.m1]⟩,
  ⟨"M0.CPUR", 0x1800000#28, 0xF800000#28, [.m0]⟩]

/-- Rows 49 to 64 of spec/opcode_table.json. -/
def opcodeRows4 : List OpcodeRow := [
  ⟨"M0.PPUR", 0x3000000#28, 0xFE00000#28, [.m0]⟩,
  ⟨"M2.BANK", 0x0800000#28, 0xF800000#28, [.m2]⟩,
  ⟨"M2.CPUR", 0x1800000#28, 0xF800000#28, [.m2]⟩,
  ⟨"M2.PPUR", 0x3000000#28, 0xFE00000#28, [.m2]⟩,
  ⟨"M3.BANK", 0x0800000#28, 0xF800000#28, [.m3]⟩,
  ⟨"M3.CPUR", 0x1800000#28, 0xF800000#28, [.m3]⟩,
  ⟨"M3.PPUR", 0x3000000#28, 0xFE00000#28, [.m3]⟩,
  ⟨"M7.BANK", 0x0800000#28, 0xF800000#28, [.m7]⟩,
  ⟨"M7.CPUR", 0x1800000#28, 0xF800000#28, [.m7]⟩,
  ⟨"M7.PPUR", 0x3000000#28, 0xFE00000#28, [.m7]⟩,
  ⟨"M66.BANK", 0x0800000#28, 0xF800000#28, [.m66]⟩,
  ⟨"M140.BANK", 0x0600000#28, 0xFE00000#28, [.m140]⟩,
  ⟨"M66.CPUR", 0x1800000#28, 0xF800000#28, [.m66, .m140]⟩,
  ⟨"M66.PPUR", 0x3000000#28, 0xFE00000#28, [.m66, .m140]⟩,
  ⟨"MAP.PPUW", 0x2000000#28, 0xFE00000#28, allMappers⟩,
  ⟨"NOP.NOTMINE", 0x0000000#28, 0x0000000#28, allMappers⟩]

/-- The table, in its order. -/
def opcodeTable : List OpcodeRow := opcodeRows1 ++ opcodeRows2 ++ opcodeRows3 ++ opcodeRows4

/-- A row is selected by a word on a mapper (R94). -/
def OpcodeRow.selects (r : OpcodeRow) (m : Mapper) (w : EventWord) : Bool :=
  r.variants.contains m && w &&& r.mask == r.pattern

/-- The refusals R71 applies before the table is consulted. -/
def refusedWord (w : EventWord) : Bool :=
  9#4 ≤ eventKind w || ((eventKind w = 2#4 || eventKind w = 3#4) && (eventAddr w).extractLsb' 14 2 ≠ 0#2)

/-- The table-driven decoder of R94: the refusals, then the first matching row. -/
def tableSelect (m : Mapper) (w : EventWord) : Option String :=
  if refusedWord w then none else (opcodeTable.find? (·.selects m w)).map (·.mnemonic)

/-- The row of spec/opcode_table.json an operation stands for. -/
def Instr.mnemonic : Instr → String
  | .w4000 .. => "W4000"
  | .w4001 .. => "W4001"
  | .w4002 .. => "W4002"
  | .w4003 .. => "W4003"
  | .w4004 .. => "W4004"
  | .w4005 .. => "W4005"
  | .w4006 .. => "W4006"
  | .w4007 .. => "W4007"
  | .w4008 .. => "W4008"
  | .w4009 => "W4009"
  | .w400A .. => "W400A"
  | .w400B .. => "W400B"
  | .w400C .. => "W400C"
  | .w400D => "W400D"
  | .w400E .. => "W400E"
  | .w400F .. => "W400F"
  | .w4010 => "W4010"
  | .w4011 => "W4011"
  | .w4012 => "W4012"
  | .w4013 => "W4013"
  | .w4015 .. => "W4015"
  | .w4017 .. => "W4017"
  | .r4015 => "R4015"
  | .mclk => "MCLK"
  | .scanline => "SCANLINE"
  | .scanlineInert => "SCANLINE.INERT"
  | .reset => "RESET"
  | .ackapu => "ACKAPU"
  | .ackmap => "ACKMAP"
  | .ackmapInert => "ACKMAP.INERT"
  | .m4Banksel .. => "M4.BANKSEL"
  | .m4Bankdata .. => "M4.BANKDATA"
  | .m4Mirror .. => "M4.MIRROR"
  | .m4Ramprot => "M4.RAMPROT"
  | .m4Irqlatch .. => "M4.IRQLATCH"
  | .m4Irqreload => "M4.IRQRELOAD"
  | .m4Irqdis => "M4.IRQDIS"
  | .m4Irqen => "M4.IRQEN"
  | .m4Sramw .. => "M4.SRAMW"
  | .m4Sramr .. => "M4.SRAMR"
  | .m4Cpur .. => "M4.CPUR"
  | .m4Ppur .. => "M4.PPUR"
  | .m1Load .. => "M1.LOAD"
  | .m1Sramw .. => "M1.SRAMW"
  | .m1Sramr .. => "M1.SRAMR"
  | .m1Cpur .. => "M1.CPUR"
  | .m1Ppur .. => "M1.PPUR"
  | .m0Cpur .. => "M0.CPUR"
  | .m0Ppur .. => "M0.PPUR"
  | .m2Bank .. => "M2.BANK"
  | .m2Cpur .. => "M2.CPUR"
  | .m2Ppur .. => "M2.PPUR"
  | .m3Bank .. => "M3.BANK"
  | .m3Cpur .. => "M3.CPUR"
  | .m3Ppur .. => "M3.PPUR"
  | .m7Bank .. => "M7.BANK"
  | .m7Cpur .. => "M7.CPUR"
  | .m7Ppur .. => "M7.PPUR"
  | .m66Bank .. => "M66.BANK"
  | .m140Bank .. => "M140.BANK"
  | .m66Cpur .. => "M66.CPUR"
  | .m66Ppur .. => "M66.PPUR"
  | .mapPpuw .. => "MAP.PPUW"
  | .nopNotmine .. => "NOP.NOTMINE"

end Sys2Proof
end

