-- ==== Sys2Proof/Machine/Types.lean ====
section
/-! DEFINITION. The state records of every unit (10_state.md R13 to R39), as plain data. Each field has the width
the spec gives it, so a field never holds a value outside its width (R40). -/

namespace Sys2Proof.Machine

/-- A periodic divider; `counter` has the width of `period` (R15). -/
structure Divider (w : Nat) where
  period  : BitVec w
  counter : BitVec w
deriving DecidableEq, Repr

/-- A length counter (R17). -/
structure LengthCounter where
  enabled : Bool
  halt    : Bool
  counter : BitVec 8
deriving DecidableEq, Repr

/-- A volume envelope (R18); `counter` is the decay level. -/
structure Envelope where
  restartPending : Bool
  loop           : Bool
  divider        : Divider 4
  counter        : BitVec 4
  constantMode   : Bool
  constantLevel  : BitVec 4
deriving DecidableEq, Repr

/-- A sweep unit (R19). `targetPeriod` and `silenced` are stored results of the last recompute;
`usesOnesComplement` is the instance's constant. -/
structure Sweep where
  enabled            : Bool
  negate             : Bool
  reloadPending      : Bool
  shiftCount         : BitVec 3
  divider            : Divider 3
  targetPeriod       : BitVec 12
  silenced           : Bool
  usesOnesComplement : Bool
deriving DecidableEq, Repr

/-- A pulse duty sequencer (R21). -/
structure PulseSeq where
  duty : BitVec 2
  step : BitVec 3
deriving DecidableEq, Repr

/-- The triangle's linear counter: its value is `divider.counter`, its reload value `divider.period` (R20, R150). -/
structure LinearCounter where
  reloadPending : Bool
  controlFlag   : Bool
  divider       : Divider 7
deriving DecidableEq, Repr

/-- The noise register (R21). -/
structure NoiseRegister where
  shiftRegister : BitVec 15
  shortMode     : Bool
deriving DecidableEq, Repr

/-- A pulse channel. `timer` is the spec's `timer.divider`: a timer's `minPeriod` is a parameter (R22). -/
structure Pulse where
  timer : Divider 11
  len   : LengthCounter
  env   : Envelope
  sweep : Sweep
  seq   : PulseSeq
deriving DecidableEq, Repr

/-- The triangle channel; `step` is the spec's `triangle.seq.step`. -/
structure Triangle where
  timer : Divider 11
  len   : LengthCounter
  lin   : LinearCounter
  step  : BitVec 5
deriving DecidableEq, Repr

/-- The noise channel. -/
structure Noise where
  timer : Divider 12
  len   : LengthCounter
  env   : Envelope
  lfsr  : NoiseRegister
deriving DecidableEq, Repr

/-- `fs.stepCount`: 4 or 5 (R23). -/
inductive StepCount where
  | four | five
deriving DecidableEq, Repr

/-- The frame sequencer (R23). `cpuCycleCounter` counts half-cycles (R174); a natural number, because the OPEN
schedule `FS5` may be longer than 16 bits count (log 9). -/
structure FrameSequencer where
  cpuCycleCounter    : Nat
  stepCount          : StepCount
  interruptInhibited : Bool
  interruptFlag      : Bool
deriving DecidableEq, Repr

/-- The APU top level (R24). `masterClockPhase` is below `APU_DIV` in every reachable state (log 8). -/
structure Apu where
  masterClockPhase    : Nat
  evenCycleParity     : Bool
  enabledChannelsMask : BitVec 4
  fs                  : FrameSequencer
  pulse1              : Pulse
  pulse2              : Pulse
  triangle            : Triangle
  noise               : Noise
deriving DecidableEq, Repr

/-- Mapper 1 (R34). -/
structure Mmc1 where
  shift    : BitVec 5
  control  : BitVec 5
  chrBank0 : BitVec 5
  chrBank1 : BitVec 5
  prgBank  : BitVec 4
deriving DecidableEq, Repr

/-- Mapper 4: bank part (R37) and interrupt part (R38). -/
structure Mmc3 where
  target         : BitVec 3
  prgMode        : Bool
  chrMode        : Bool
  R              : Vector Byte 8
  mirror         : Bool
  irqCounter     : Byte
  irqReloadValue : Byte
  irqEnabled     : Bool
  irqPending     : Bool
  reloadPending  : Bool
deriving DecidableEq, Repr

/-- Mapper 7 (R36). -/
structure OneScreenBank where
  prgBank   : BitVec 3
  mirrorSel : Bool
deriving DecidableEq, Repr

/-- Mappers 66 and 140 (R36). -/
structure BankPair where
  prgBank : BitVec 2
  chrBank : BitVec 2
deriving DecidableEq, Repr

/-- `S.map`: the fields depend on `MAPPER`, and the constructor is `MAPPER` (R13, R244). -/
inductive MapState where
  | m0
  | m1 (m : Mmc1)
  | m2 (prgBank : BitVec 4)
  | m3 (chrBank : BitVec 2)
  | m4 (m : Mmc3)
  | m7 (m : OneScreenBank)
  | m66 (m : BankPair)
  | m140 (m : BankPair)
deriving DecidableEq, Repr

/-- A storage's contents: the bytes loaded or written since power-on, keyed by offset, offsets strictly rising
(logs 5 and 6). -/
abbrev Memory := List Host.Cell

/-- The result of a translation (R241). -/
inductive Translation where
  | prg (offset : Nat)
  | chr (offset : Nat)
  | sram (offset : Nat)
  | handled
  | notMine
deriving DecidableEq, Repr

/-- What an event returns to its issuer (R8 "return v", R241, R242; log 4). -/
inductive Answer where
  /-- no value: clock and control events, APU register writes -/
  | nothing
  /-- a mapper register write that was consumed -/
  | handled
  /-- the transaction is not the block's -/
  | notMine
  /-- the value of the read of 0x4015 -/
  | status (value : Byte)
  /-- a storage read: the translated offset and the byte there -/
  | read (space : Space) (offset : Nat) (value : Byte)
  /-- a storage write: the translated offset written -/
  | stored (space : Space) (offset : Nat)
deriving DecidableEq, Repr

end Sys2Proof.Machine
end

