-- ==== Sys2Proof/Machine/Tables.lean ====
section
/-! DEFINITION. The constant tables of the block and the default values of its parameters (R6). -/

namespace Sys2Proof.Machine

/-- `LEN_TABLE[0..31]` (R116). -/
def lenTable : Vector Byte 32 := #v[
  10, 254, 20, 2, 40, 4, 80, 6, 160, 8, 60, 10, 14, 12, 26, 14,
  12, 16, 24, 18, 48, 20, 96, 22, 192, 24, 72, 26, 16, 28, 32, 30]

/-- The default `NOISE_PERIOD[0..15]` (R6, R108). -/
def defaultNoisePeriod : Vector (BitVec 12) 16 := #v[
  1, 3, 7, 15, 31, 47, 63, 79, 100, 126, 189, 253, 380, 507, 1016, 2033]

/-- The default `DUTY` rows (R158): bit `step` of a row is `DUTY[duty][step]`, so step 0 is the rightmost digit. -/
def defaultDuty : Vector (BitVec 8) 4 := #v[0b00000010, 0b00000110, 0b00011110, 0b11111001]

/-- `TRI[step]`: 15 down to 0, then 0 up to 15 (R162). -/
def triTable (step : BitVec 5) : BitVec 4 :=
  if step.toNat ≤ 15 then BitVec.ofNat 4 (15 - step.toNat) else BitVec.ofNat 4 (step.toNat - 16)

/-- The 4-step schedule `FS4`, counts in half-cycles (R175). -/
def fs4 : List ScheduleEntry := [
  { count := 14914, quarter := true, half := false, interrupt := false, wrap := false },
  { count := 29828, quarter := true, half := true,  interrupt := false, wrap := false },
  { count := 44742, quarter := true, half := false, interrupt := false, wrap := false },
  { count := 59660, quarter := true, half := true,  interrupt := true,  wrap := true }]

/-- The default 5-step schedule `FS5` (R176). -/
def defaultFs5 : List ScheduleEntry := [
  { count := 14914, quarter := true,  half := false, interrupt := false, wrap := false },
  { count := 29828, quarter := true,  half := true,  interrupt := false, wrap := false },
  { count := 44742, quarter := true,  half := false, interrupt := false, wrap := false },
  { count := 52200, quarter := false, half := false, interrupt := false, wrap := false },
  { count := 59660, quarter := true,  half := true,  interrupt := false, wrap := true }]

/-- The defaults of R6. -/
def defaultParams : Params where
  apuDiv := 3
  minPeriod := { pulse1 := 0, pulse2 := 0, triangle := 2, noise := 0 }
  noisePeriod := defaultNoisePeriod
  sweepOnesAdj := .plus
  duty := defaultDuty
  pulsePhaseReset := true
  fs5 := defaultFs5
  m4ZeroReloadNeedsEnable := true

/-- The cartridge of `State.reset`: the spec gives none (DESIGN CHOICE, log 2). -/
def resetCartridge : Cartridge where
  prgChunks := 8
  chrChunks := 0
  hwMirror := .horizontal

/-- Number of ones of a duty row. -/
def dutyOnes (row : BitVec 8) : Nat := (List.range 8).countP (fun i => row.getLsbD i)

/-- The duty rows the source admits: 1, 2, 4 and 6 ones, the last the complement of the second (R158). -/
def dutyOk (duty : Vector (BitVec 8) 4) : Bool :=
  dutyOnes duty[0] == 1 && dutyOnes duty[1] == 2 && dutyOnes duty[2] == 4 && dutyOnes duty[3] == 6
    && duty[3] == ~~~ duty[1]

/-- The condition R176 puts on `FS5`: strictly increasing even counts, the last entry wrapping, none raising the
interrupt. R176 does not say whether an entry before the last may wrap as well, where R14 has the counter wrap at the
last entry alone; such a schedule is admitted (DESIGN CHOICE, log 27). -/
def scheduleOk : List ScheduleEntry → Bool
  | [] => false
  | [e] => e.count % 2 == 0 && e.wrap && !e.interrupt
  | e :: f :: rest => e.count < f.count && e.count % 2 == 0 && !e.interrupt && scheduleOk (f :: rest)

/-- The parameter values R6 admits. -/
def paramsOk (p : Params) : Bool := 1 ≤ p.apuDiv && dutyOk p.duty && scheduleOk p.fs5

/-- The cartridges R336 admits: `PRG_CHUNKS = 0` has no block. -/
def cartridgeOk (c : Cartridge) : Bool := 1 ≤ c.prgChunks

end Sys2Proof.Machine
end

