-- ==== Sys2Proof/Machine/Reset.lean ====
section
/-! DEFINITION. The reset values of every unit: `APU_RESET` (R351) and `MAP_RESET` (R352). -/

namespace Sys2Proof.Machine

def dividerReset (w : Nat) : Divider w where
  period := 0
  counter := 0

def lenReset : LengthCounter where
  enabled := false
  halt := false
  counter := 0

def envReset : Envelope where
  restartPending := false
  loop := false
  divider := dividerReset 4
  counter := 0
  constantMode := false
  constantLevel := 0

/-- `silenced` is true, the value a recompute gives for period 0 (R16, R351). -/
def sweepReset (usesOnesComplement : Bool) : Sweep where
  enabled := false
  negate := false
  reloadPending := false
  shiftCount := 0
  divider := dividerReset 3
  targetPeriod := 0
  silenced := true
  usesOnesComplement := usesOnesComplement

def pulseReset (usesOnesComplement : Bool) : Pulse where
  timer := dividerReset 11
  len := lenReset
  env := envReset
  sweep := sweepReset usesOnesComplement
  seq := { duty := 0, step := 0 }

def triangleReset : Triangle where
  timer := dividerReset 11
  len := lenReset
  lin := { reloadPending := false, controlFlag := false, divider := dividerReset 7 }
  step := 0

def noiseReset (p : Params) : Noise where
  timer := { period := p.noisePeriod[0], counter := 0 }
  len := lenReset
  env := envReset
  lfsr := { shiftRegister := 1, shortMode := false }

def fsReset : FrameSequencer where
  cpuCycleCounter := 0
  stepCount := .four
  interruptInhibited := false
  interruptFlag := false

/-- `APU_RESET` (R351): pulse 1 has the ones' complement sweep, pulse 2 has not. -/
def apuReset (p : Params) : Apu where
  masterClockPhase := 0
  evenCycleParity := true
  enabledChannelsMask := 0
  fs := fsReset
  pulse1 := pulseReset true
  pulse2 := pulseReset false
  triangle := triangleReset
  noise := noiseReset p

/-- Mapper 1 (R288): `shift = 0b10000`, `control = 0x0C`. -/
def mmc1Reset : Mmc1 where
  shift := 0b10000
  control := 0x0C
  chrBank0 := 0
  chrBank1 := 0
  prgBank := 0

/-- Mapper 4 (R309). -/
def mmc3Reset : Mmc3 where
  target := 0
  prgMode := false
  chrMode := false
  R := Vector.replicate 8 0
  mirror := false
  irqCounter := 0
  irqReloadValue := 0
  irqEnabled := false
  irqPending := false
  reloadPending := false

/-- `MAP_RESET(MAPPER)` (R352). -/
def mapReset : Mapper → MapState
  | .m0 => .m0
  | .m1 => .m1 mmc1Reset
  | .m2 => .m2 0
  | .m3 => .m3 0
  | .m4 => .m4 mmc3Reset
  | .m7 => .m7 { prgBank := 0, mirrorSel := false }
  | .m66 => .m66 { prgBank := 0, chrBank := 0 }
  | .m140 => .m140 { prgBank := 0, chrBank := 0 }

end Sys2Proof.Machine
end

