-- ==== Sys2Proof/Machine/State.lean ====
section
/-! DEFINITION. The state of the block (R13), the reasons a step can stop, and the state after reset. -/

namespace Sys2Proof.Machine

/-- The whole state: the fixed parameters (log 1), `S.apu`, `S.map`, the three storages, and the model's own two
fields, the events the environment has issued and not yet seen taken (log 3) and the last answer (log 4). -/
structure State where
  params : Params
  cart   : Cartridge
  apu    : Apu
  map    : MapState
  prg    : Memory
  chr    : Memory
  sram   : Memory
  events : List EventWord
  answer : Answer
deriving DecidableEq, Repr

/-- No constructor: "No event faults" (R320). -/
inductive Fault where
deriving DecidableEq, Repr

/-- Why a step gives no next state. All are safe: the machine stops where the spec has no step. -/
inductive Refusal where
  /-- Raised by `exec` for an operation with no meaning yet. Safe. -/
  | notModelled (mnemonic : String)
  /-- Raised by `step` for a word the decoder refuses: kinds 9 to 15, PPU addresses above 14 bits (R71, 93 U6). Safe. -/
  | refusedWord (reason : DecodeError)
  /-- Raised by a meaning whose row does not exist for the block's `MAPPER` (R94); the decoder never gives one (log 14). Safe. -/
  | absentOnThisMapper
  /-- Raised by `step` on a state that is no block: `PRG_CHUNKS = 0` or parameters outside R6 (R336; log 11). Safe. -/
  | unsupportedCartridge
deriving DecidableEq, Repr

/-- `MAPPER` (R244). -/
def State.mapper (s : State) : Mapper :=
  match s.map with
  | .m0 => .m0
  | .m1 _ => .m1
  | .m2 _ => .m2
  | .m3 _ => .m3
  | .m4 _ => .m4
  | .m7 _ => .m7
  | .m66 _ => .m66
  | .m140 _ => .m140

/-- The block right after instantiation with the defaults of R6 and the cartridge of log 2: every field at its
reset value (R42), nothing listed in any storage, no event pending. -/
def State.reset : State where
  params := defaultParams
  cart := resetCartridge
  apu := apuReset defaultParams
  map := mapReset resetMapper
  prg := []
  chr := []
  sram := []
  events := []
  answer := .nothing

end Sys2Proof.Machine
end

