-- ==== Sys2Proof/Machine/Ops.lean ====
section
/-! DEFINITION. The shared operations: bytes of a storage, the updates of State, the answer of an event, the
divider and the channel timer, and the two interrupt latches. -/

namespace Sys2Proof.Machine

/-! ### Storage contents -/

/-- The byte loaded or written at an offset since power-on, if any. -/
def Memory.read? : Memory → Nat → Option Byte
  | [], _ => none
  | (k, v) :: rest, a => if a = k then some v else Memory.read? rest a

/-- Write one byte; the offsets stay strictly rising. -/
def Memory.write : Memory → Nat → Byte → Memory
  | [], a, v => [(a, v)]
  | (k, u) :: rest, a, v =>
    if a < k then (a, v) :: (k, u) :: rest
    else if a = k then (a, v) :: rest
    else (k, u) :: Memory.write rest a v

/-- Every offset is at least `low`, and the offsets are strictly rising. -/
def Memory.risingFrom (low : Nat) : Memory → Bool
  | [] => true
  | (k, _) :: rest => low ≤ k && Memory.risingFrom (k + 1) rest

/-- The canonical form: strictly rising offsets (log 6). -/
def Memory.wf (m : Memory) : Bool := Memory.risingFrom 0 m

/-- Every offset is below the size. -/
def Memory.within (size : Nat) (m : Memory) : Bool := m.all (fun c => c.1 < size)

/-- The contents that hold the given bytes from offset `start` on. -/
def Memory.ofBytes (start : Nat) : List Byte → Memory
  | [] => []
  | b :: rest => (start, b) :: Memory.ofBytes (start + 1) rest

/-! ### Sizes (R6, R39, R52) -/

def prgChunkBytes : Nat := 16384
def chrChunkBytes : Nat := 8192
def sramSize : Nat := 8192

/-- `PRG_SIZE`. -/
def prgSize (c : Cartridge) : Nat := c.prgChunks * prgChunkBytes

/-- `CHR_CHUNKS = 0`: the cartridge carries graphics RAM (R52, R247). -/
def chrIsRam (c : Cartridge) : Bool := c.chrChunks = 0

/-- `CHR_SIZE`. -/
def chrSize (c : Cartridge) : Nat := if chrIsRam c then chrChunkBytes else c.chrChunks * chrChunkBytes

/-! ### Updates of State -/

def State.withApu (s : State) (a : Apu) : State := { s with apu := a }
def State.withMap (s : State) (m : MapState) : State := { s with map := m }
def State.withChr (s : State) (m : Memory) : State := { s with chr := m }
def State.withSram (s : State) (m : Memory) : State := { s with sram := m }
def State.withEvents (s : State) (e : List EventWord) : State := { s with events := e }
def State.withAnswer (s : State) (a : Answer) : State := { s with answer := a }

/-- What a meaning answers. -/
abbrev Result := Host.Outcome State Fault Refusal

/-- The event completes and returns `a` to its issuer (R8, R57). -/
def finish (a : Answer) (s : State) : Result := .next (s.withAnswer a)

/-! ### Storage access (R8 `MemRead`, `MemWrite`) -/

def State.memory (s : State) : Space → Memory
  | .prg => s.prg
  | .chr => s.chr
  | .sram => s.sram

/-- The byte a storage holds: what was loaded or written, else the free power-on value (R39; log 5). -/
def State.byteAt (s : State) (sp : Space) (offset : Nat) : Byte :=
  ((s.memory sp).read? offset).getD (Config.powerOnByte sp offset)

/-- A storage read completes with the byte; it has no side effect (R56). -/
def readStorage (sp : Space) (offset : Nat) (s : State) : Result :=
  finish (.read sp offset (s.byteAt sp offset)) s

/-- A write of `SRAM`. -/
def writeSram (offset : Nat) (d : Byte) (s : State) : Result :=
  finish (.stored .sram offset) (s.withSram (s.sram.write offset d))

/-- A write of graphics RAM. -/
def writeChr (offset : Nat) (d : Byte) (s : State) : Result :=
  finish (.stored .chr offset) (s.withChr (s.chr.write offset d))

/-! ### Divider (R100 to R104) and channel timer (R106) -/

/-- `Divider.Clock()`: the divider after the clock, and whether it fired (R100). -/
def Divider.clock {w : Nat} (d : Divider w) : Divider w × Bool :=
  if d.counter = 0 then ({ d with counter := d.period }, true)
  else ({ d with counter := d.counter - 1 }, false)

/-- `Divider.ResetCounter()`: no fire (R101). -/
def Divider.resetCounter {w : Nat} (d : Divider w) : Divider w := { d with counter := d.period }

/-- `Divider.SetPeriod(p)`: the counter is not touched (R104). -/
def Divider.setPeriod {w : Nat} (d : Divider w) (p : BitVec w) : Divider w := { d with period := p }

/-- `Timer.Clock()`: a timer whose period is below `MIN_PERIOD[ch]` is not clocked at all (R106). -/
def timerClock {w : Nat} (minPeriod : Nat) (d : Divider w) : Divider w × Bool :=
  if d.period.toNat < minPeriod then (d, false) else d.clock

/-! ### The two pulse channels -/

/-- Which pulse channel. -/
inductive PulseId where
  | one | two
deriving DecidableEq, Repr

def Apu.pulse (a : Apu) : PulseId → Pulse
  | .one => a.pulse1
  | .two => a.pulse2

def Apu.withPulse (a : Apu) (id : PulseId) (p : Pulse) : Apu :=
  match id with
  | .one => { a with pulse1 := p }
  | .two => { a with pulse2 := p }

/-! ### The interrupt latches (R183, R322, R327): the block takes no trap (R320, R330) -/

/-- The frame interrupt latch is set (R177). -/
def FrameSequencer.raiseIrq (fs : FrameSequencer) : FrameSequencer := { fs with interruptFlag := true }

/-- The frame interrupt latch is cleared (R182, R215, R179). -/
def FrameSequencer.clearIrq (fs : FrameSequencer) : FrameSequencer := { fs with interruptFlag := false }

/-- The mapper 4 interrupt latch is set (R307). -/
def Mmc3.raiseIrq (m : Mmc3) : Mmc3 := { m with irqPending := true }

/-- The mapper 4 interrupt latch is cleared (R308, R305). -/
def Mmc3.clearIrq (m : Mmc3) : Mmc3 := { m with irqPending := false }

/-! ### A row on the variant that has it; elsewhere the row does not exist (R94; log 14) -/

def State.onM1 (s : State) (k : Mmc1 → Result) : Result :=
  match s.map with
  | .m1 m => k m
  | .m0 | .m2 _ | .m3 _ | .m4 _ | .m7 _ | .m66 _ | .m140 _ => .refused .absentOnThisMapper

def State.onM4 (s : State) (k : Mmc3 → Result) : Result :=
  match s.map with
  | .m4 m => k m
  | .m0 | .m1 _ | .m2 _ | .m3 _ | .m7 _ | .m66 _ | .m140 _ => .refused .absentOnThisMapper

/-- For the rows whose meaning uses no field of the variant beyond its being installed. -/
def State.onMapper (s : State) (ms : List Mapper) (k : Result) : Result :=
  if ms.contains s.mapper then k else .refused .absentOnThisMapper

end Sys2Proof.Machine
end

