-- ==== Sys2Proof/Machine/Operands.lean ====
section
/-! DEFINITION. The operand forms: the two halves of an 11-bit timer period (R54, R73) and the offset composition
of a bank number and a bus address (R243). -/

namespace Sys2Proof.Machine

/-- The period after a timer-low write: the high three bits are kept (R202). -/
def periodWithLow (period : BitVec 11) (low : Byte) : BitVec 11 := period.extractLsb' 8 3 ++ low

/-- The period after a timer-high write: the low eight bits are kept (R203). -/
def periodWithHigh (period : BitVec 11) (high : BitVec 3) : BitVec 11 := high ++ period.extractLsb' 0 8

/-- Offset composition: the address bits below the bank size pass through, the rest comes from the bank number, and
the whole is reduced modulo the storage's size (R243). -/
def bankOffset (size bank bankSize a : Nat) : Nat := (bank * bankSize + a % bankSize) % size

/-- The offset in `PRG` of a bank of `bankSize` bytes. -/
def prgOffset (c : Cartridge) (bank bankSize : Nat) (a : CpuAddr) : Nat :=
  bankOffset (prgSize c) bank bankSize a.toNat

/-- The offset in `CHR` of a bank of `bankSize` bytes. -/
def chrOffset (c : Cartridge) (bank bankSize : Nat) (a : PpuAddr) : Nat :=
  bankOffset (chrSize c) bank bankSize a.toNat

/-- The last 16 KiB program bank (R243, R253). -/
def lastPrgBank16 (c : Cartridge) : Nat := c.prgChunks - 1

/-- The number of 8 KiB program banks, `N8` (R298). -/
def prgBanks8 (c : Cartridge) : Nat := 2 * c.prgChunks

/-- The save-memory offset of an operand (R287: `a & 0x1FFF`). -/
def sramOffset (offset : BitVec 13) : Nat := offset.toNat

end Sys2Proof.Machine
end

