-- ==== Sys2Proof/Machine/Flags.lean ====
section
/-! DEFINITION. Every computed flag: the sweep target and its silencing gate (R136, R137), the silencing conditions of
the channels (R120, R154, R168), the status value of 0x4015 (R215), and the two interrupt lines (R321, R326). -/

namespace Sys2Proof.Machine

/-- The adjustment of the negated target: only a unit with `usesOnesComplement` has one (R136). -/
def onesAdjustment (adj : OnesAdj) (usesOnesComplement : Bool) : Int :=
  match usesOnesComplement, adj with
  | false, _ => 0
  | true, .plus => 1
  | true, .minus => -1

/-- The target formula over the integers (R136). -/
def sweepTarget (adj : OnesAdj) (w : Sweep) (period : BitVec 11) : Int :=
  let p : Int := period.toNat
  let shifted : Int := (period.toNat >>> w.shiftCount.toNat : Nat)
  if w.negate then p - (shifted - onesAdjustment adj w.usesOnesComplement) else p + shifted

/-- `Sweep.Recompute(P)` (R137). The one value outside 0..4094, -1 under `SWEEP_ONES_ADJ = -1`, is stored as 4095 (R136). -/
def Sweep.recompute (adj : OnesAdj) (w : Sweep) (period : BitVec 11) : Sweep :=
  let target := BitVec.ofInt 12 (sweepTarget adj w period)
  { w with targetPeriod := target, silenced := period.toNat < 8 || 0x7FF < target.toNat }

/-- `Len.Silence()` (R120). -/
def LengthCounter.silent (l : LengthCounter) : Bool := l.counter = 0

/-- `Lin.NonZero()` (R154). -/
def LinearCounter.nonZero (n : LinearCounter) : Bool := n.divider.counter ≠ 0

/-- `Lfsr.Silence()` (R168). -/
def NoiseRegister.silent (g : NoiseRegister) : Bool := g.shiftRegister.getLsbD 0

/-- The value a read of 0x4015 returns: bit `i` set when the length counter of channel `i` is above zero, bits 7:4
zero (R83, R215). -/
def statusValue (a : Apu) : Byte :=
  0#4 ++ bit (!a.noise.len.silent) ++ bit (!a.triangle.len.silent) ++ bit (!a.pulse2.len.silent)
    ++ bit (!a.pulse1.len.silent)

/-- The observation `ApuIrq` (R321). -/
def State.apuIrq (s : State) : Bool := s.apu.fs.interruptFlag

/-- The observation `MapIrq` (R326). -/
def State.mapIrq (s : State) : Bool :=
  match s.map with
  | .m4 m => m.irqPending
  | .m0 | .m1 _ | .m2 _ | .m3 _ | .m7 _ | .m66 _ | .m140 _ => false

end Sys2Proof.Machine
end

