-- ==== Sys2Proof/Machine/Units.lean ====
section
/-! DEFINITION. The internal micro-operations of the channel units: length counter (R117 to R121), envelope (R126 to
R129), sweep (R138 to R140), linear counter (R151 to R153), wave generators (R159 to R169). -/

namespace Sys2Proof.Machine

/-! ### Length counter -/

/-- `Len.Load(index)`: lost while disabled (R117). -/
def LengthCounter.load (l : LengthCounter) (index : BitVec 5) : LengthCounter :=
  if l.enabled then { l with counter := lenTable.get index.toFin } else l

/-- `Len.SetEnabled(b)`: disabling zeroes the counter (R118). -/
def LengthCounter.setEnabled (l : LengthCounter) (b : Bool) : LengthCounter :=
  { l with enabled := b, counter := if b then l.counter else 0 }

/-- `Len.Clock()` (R119). -/
def LengthCounter.clock (l : LengthCounter) : LengthCounter :=
  if l.halt then l
  else if l.counter = 0 then l
  else { l with counter := l.counter - 1 }

/-- `Len.SetHalt(b)` (R121). -/
def LengthCounter.setHalt (l : LengthCounter) (b : Bool) : LengthCounter := { l with halt := b }

/-! ### Volume envelope -/

/-- `Env.Restart()` (R126). -/
def Envelope.restart (e : Envelope) : Envelope := { e with restartPending := true }

/-- What a fire of the envelope's divider does to the decay level (R127). -/
def decayLevel (loop : Bool) (counter : BitVec 4) : BitVec 4 :=
  if counter = 0 then (if loop then 15 else 0) else counter - 1

/-- `Env.Clock()` (R127). -/
def Envelope.clock (e : Envelope) : Envelope :=
  if e.restartPending then
    { e with restartPending := false, counter := 15, divider := e.divider.resetCounter }
  else
    { e with
      divider := e.divider.clock.1
      counter := if e.divider.clock.2 then decayLevel e.loop e.counter else e.counter }

/-- `Env.GetVolume()` (R128). -/
def Envelope.volume (e : Envelope) : BitVec 4 := if e.constantMode then e.constantLevel else e.counter

/-- `Env.Write(haltloop, const, level)`: the level is also the divider's period, in both modes (R129). -/
def Envelope.write (e : Envelope) (haltloop const : Bool) (level : BitVec 4) : Envelope :=
  { e with
    loop := haltloop
    constantMode := const
    constantLevel := level
    divider := e.divider.setPeriod level }

/-! ### Sweep unit -/

/-- `Sweep.Apply()` (R139): the stored target and gate are used as they stand; the timer's counter is not touched. -/
def Pulse.applySweep (p : Pulse) : Pulse :=
  if p.sweep.enabled && p.sweep.shiftCount != 0 && !p.sweep.silenced then
    { p with timer := p.timer.setPeriod (p.sweep.targetPeriod.setWidth 11) }
  else p

/-- `Sweep.Clock()` after its recompute (R138). -/
def Pulse.clockSweepDivider (p : Pulse) : Pulse :=
  if p.sweep.reloadPending then
    let reloaded : Pulse :=
      { p with sweep := { p.sweep with reloadPending := false, divider := p.sweep.divider.resetCounter } }
    if p.sweep.divider.counter = 0 && p.sweep.enabled then reloaded.applySweep else reloaded
  else
    let clocked : Pulse := { p with sweep := { p.sweep with divider := p.sweep.divider.clock.1 } }
    if p.sweep.divider.clock.2 && p.sweep.enabled then clocked.applySweep else clocked

/-- The recompute of R141, from the channel's present period. -/
def Pulse.recomputeSweep (adj : OnesAdj) (p : Pulse) : Pulse :=
  { p with sweep := p.sweep.recompute adj p.timer.period }

/-- `Sweep.Clock()` (R138): the recompute comes first. -/
def Pulse.clockSweep (adj : OnesAdj) (p : Pulse) : Pulse := (p.recomputeSweep adj).clockSweepDivider

/-- `Sweep.Write(en, period, neg, shift)`: no recompute (R140, R141). -/
def Sweep.write (w : Sweep) (en : Bool) (period : BitVec 3) (neg : Bool) (shift : BitVec 3) : Sweep :=
  { w with
    enabled := en
    divider := w.divider.setPeriod period
    negate := neg
    shiftCount := shift
    reloadPending := true }

/-! ### Linear counter -/

/-- The counting part of `Lin.Clock()`: reload, or count down and stay at zero (R151). -/
def LinearCounter.count (n : LinearCounter) : Divider 7 :=
  if n.reloadPending then n.divider.resetCounter
  else if n.divider.counter = 0 then n.divider
  else { n.divider with counter := n.divider.counter - 1 }

/-- `Lin.Clock()` (R151): the pending flag is cleared unless `controlFlag`. -/
def LinearCounter.clock (n : LinearCounter) : LinearCounter :=
  { n with divider := n.count, reloadPending := n.reloadPending && n.controlFlag }

/-- `Lin.Write(control, reload)` (R152). -/
def LinearCounter.write (n : LinearCounter) (control : Bool) (reload : BitVec 7) : LinearCounter :=
  { n with controlFlag := control, divider := n.divider.setPeriod reload }

/-- `Lin.Restart()` (R153). -/
def LinearCounter.restart (n : LinearCounter) : LinearCounter := { n with reloadPending := true }

/-! ### Wave generators -/

/-- `PulseSeq.Clock()`: modulo 8 (R159). -/
def PulseSeq.clock (q : PulseSeq) : PulseSeq := { q with step := q.step + 1 }

/-- `PulseSeq.GetValue()` (R160). -/
def PulseSeq.value (ps : Params) (q : PulseSeq) : Bool := (ps.duty.get q.duty.toFin).getLsbD q.step.toNat

/-- `PulseSeq.SetDuty(d)`: `step` is kept (R161). -/
def PulseSeq.setDuty (q : PulseSeq) (d : BitVec 2) : PulseSeq := { q with duty := d }

/-- `PulseSeq.ResetStep()`, when `PULSE_PHASE_RESET` (R161). -/
def PulseSeq.phaseReset (ps : Params) (q : PulseSeq) : PulseSeq :=
  if ps.pulsePhaseReset then { q with step := 0 } else q

/-- `TriSeq.Clock()`: gated by both counters, modulo 32 (R163). -/
def Triangle.clockSeq (t : Triangle) : Triangle :=
  if t.lin.nonZero && !t.len.silent then { t with step := t.step + 1 } else t

/-- `Lfsr.Clock()`: both bits are taken before the shift (R166). -/
def NoiseRegister.clock (g : NoiseRegister) : NoiseRegister :=
  let r := g.shiftRegister
  let feedback := r.getLsbD 0 ^^ r.getLsbD (if g.shortMode then 6 else 1)
  { g with shiftRegister := bit feedback ++ r.extractLsb' 1 14 }

/-- `Lfsr.SetMode(m)`: no reseed (R169). -/
def NoiseRegister.setMode (g : NoiseRegister) (m : Bool) : NoiseRegister := { g with shortMode := m }

/-! ### Timer clocks of the channels (R107, R191) -/

/-- Clock a pulse timer; a fire advances the sequencer. -/
def Pulse.clockTimer (minPeriod : Nat) (p : Pulse) : Pulse :=
  let r := timerClock minPeriod p.timer
  { p with timer := r.1, seq := if r.2 then p.seq.clock else p.seq }

/-- Clock the triangle timer; a fire clocks the gated sequencer. -/
def Triangle.clockTimer (minPeriod : Nat) (t : Triangle) : Triangle :=
  let r := timerClock minPeriod t.timer
  let clocked : Triangle := { t with timer := r.1 }
  if r.2 then clocked.clockSeq else clocked

/-- Clock the noise timer; a fire clocks the register. -/
def Noise.clockTimer (minPeriod : Nat) (n : Noise) : Noise :=
  let r := timerClock minPeriod n.timer
  { n with timer := r.1, lfsr := if r.2 then n.lfsr.clock else n.lfsr }

end Sys2Proof.Machine
end

