-- ==== Sys2Proof/Machine/FrameSequencer.lean ====
section
/-! DEFINITION. The frame sequencer (R173 to R183): the two pulses, the half-cycle tick, the control write and the
acknowledge; the meanings of the rows `W4017` and `ACKAPU`. -/

namespace Sys2Proof.Machine

/-- `Apu.QuarterFrame()`: the three envelopes and the linear counter (R180). -/
def Apu.quarterFrame (a : Apu) : Apu :=
  { a with
    pulse1 := { a.pulse1 with env := a.pulse1.env.clock }
    pulse2 := { a.pulse2 with env := a.pulse2.env.clock }
    triangle := { a.triangle with lin := a.triangle.lin.clock }
    noise := { a.noise with env := a.noise.env.clock } }

/-- A pulse channel's part of the half-frame pulse: length counter and sweep unit (R181). -/
def Pulse.halfFrame (adj : OnesAdj) (p : Pulse) : Pulse :=
  ({ p with len := p.len.clock } : Pulse).clockSweep adj

/-- `Apu.HalfFrame()`: the four length counters and the two sweep units (R181). -/
def Apu.halfFrame (adj : OnesAdj) (a : Apu) : Apu :=
  { a with
    pulse1 := a.pulse1.halfFrame adj
    pulse2 := a.pulse2.halfFrame adj
    triangle := { a.triangle with len := a.triangle.len.clock }
    noise := { a.noise with len := a.noise.len.clock } }

/-- The schedule of the selected sequence (R177). -/
def scheduleOf (ps : Params) : StepCount → List ScheduleEntry
  | .four => fs4
  | .five => ps.fs5

/-- What a matched schedule entry does to the sequencer's own fields (R177). -/
def FrameSequencer.atEntry (fs : FrameSequencer) (e : ScheduleEntry) : FrameSequencer :=
  let flagged :=
    if e.interrupt && fs.stepCount = .four && !fs.interruptInhibited then fs.raiseIrq else fs
  { flagged with cpuCycleCounter := if e.wrap then 0 else fs.cpuCycleCounter }

/-- The pulses a matched schedule entry sends, quarter first (R177). -/
def Apu.atEntry (adj : OnesAdj) (a : Apu) (e : ScheduleEntry) : Apu :=
  let quartered := if e.quarter then a.quarterFrame else a
  let halved := if e.half then quartered.halfFrame adj else quartered
  { halved with fs := a.fs.atEntry e }

/-- `Fs.HalfTick()` (R177). -/
def Apu.halfTick (ps : Params) (a : Apu) : Apu :=
  let counted : Apu := { a with fs := { a.fs with cpuCycleCounter := a.fs.cpuCycleCounter + 1 } }
  match (scheduleOf ps a.fs.stepCount).find? (fun e => e.count == a.fs.cpuCycleCounter + 1) with
  | some e => counted.atEntry ps.sweepOnesAdj e
  | none => counted

/-- The sequencer's own fields after a write of 0x4017 (R179). -/
def FrameSequencer.writeControl (fs : FrameSequencer) (mode inhibit : Bool) : FrameSequencer :=
  { cpuCycleCounter := 0
    stepCount := if mode then .five else .four
    interruptInhibited := inhibit
    interruptFlag := fs.interruptFlag && !inhibit }

/-- `Fs.WriteControl(mode, inhibit)`: mode 1 fires both pulses at once (R179). -/
def Apu.writeControl (ps : Params) (a : Apu) (mode inhibit : Bool) : Apu :=
  let written : Apu := { a with fs := a.fs.writeControl mode inhibit }
  if mode then written.quarterFrame.halfFrame ps.sweepOnesAdj else written

/-- `W4017` (R216, R179). -/
def execW4017 (mode inhibit : Bool) (s : State) : Result :=
  finish .nothing (s.withApu (s.apu.writeControl s.params mode inhibit))

/-- `ACKAPU` (R182). -/
def execAckapu (s : State) : Result :=
  finish .nothing (s.withApu { s.apu with fs := s.apu.fs.clearIrq })

end Sys2Proof.Machine
end

