-- ==== Sys2Proof/Machine/ApuRegisters.lean ====
section
/-! DEFINITION. The APU register decoder's operations (R200 to R217): channel register writes, the ignored addresses,
the enable write and the status read. -/

namespace Sys2Proof.Machine

/-! ### Shared channel operations -/

/-- The "duty/halt/envelope" write of a pulse channel (R200). -/
def Pulse.writeDuty (p : Pulse) (duty : BitVec 2) (haltloop const : Bool) (level : BitVec 4) : Pulse :=
  { p with
    seq := p.seq.setDuty duty
    len := p.len.setHalt haltloop
    env := p.env.write haltloop const level }

/-- The "sweep setup" write of a pulse channel (R201). -/
def Pulse.writeSweep (p : Pulse) (en : Bool) (period : BitVec 3) (neg : Bool) (shift : BitVec 3) : Pulse :=
  { p with sweep := p.sweep.write en period neg shift }

/-- A register write that changes the period: the sweep is recomputed (R202, R203, R141). -/
def Pulse.setPeriod (adj : OnesAdj) (p : Pulse) (period : BitVec 11) : Pulse :=
  ({ p with timer := p.timer.setPeriod period } : Pulse).recomputeSweep adj

/-- The "timer-low" write of a pulse channel (R202). -/
def Pulse.writeTimerLow (adj : OnesAdj) (p : Pulse) (tlow : Byte) : Pulse :=
  p.setPeriod adj (periodWithLow p.timer.period tlow)

/-- The "timer-high+length-load+restart" write of a pulse channel (R203). -/
def Pulse.writeTimerHigh (ps : Params) (p : Pulse) (lenidx : BitVec 5) (thigh : BitVec 3) : Pulse :=
  let q := p.setPeriod ps.sweepOnesAdj (periodWithHigh p.timer.period thigh)
  { q with
    len := q.len.load lenidx
    env := q.env.restart
    seq := q.seq.phaseReset ps }

/-- An event that changes one pulse channel and returns nothing. -/
def updatePulse (id : PulseId) (f : Pulse → Pulse) (s : State) : Result :=
  finish .nothing (s.withApu (s.apu.withPulse id (f (s.apu.pulse id))))

/-- An event that changes the triangle channel and returns nothing. -/
def updateTriangle (f : Triangle → Triangle) (s : State) : Result :=
  finish .nothing (s.withApu { s.apu with triangle := f s.apu.triangle })

/-- An event that changes the noise channel and returns nothing. -/
def updateNoise (f : Noise → Noise) (s : State) : Result :=
  finish .nothing (s.withApu { s.apu with noise := f s.apu.noise })

/-- `W.IGNORED` (R217): nothing changes and nothing is returned. -/
def ignoredWrite (s : State) : Result := finish .nothing s

/-! ### Pulse channel 1 -/

/-- `W4000` (R200). -/
def execW4000 (duty : BitVec 2) (haltloop const : Bool) (level : BitVec 4) (s : State) : Result :=
  updatePulse .one (fun p => p.writeDuty duty haltloop const level) s

/-- `W4001` (R201). -/
def execW4001 (en : Bool) (period : BitVec 3) (neg : Bool) (shift : BitVec 3) (s : State) : Result :=
  updatePulse .one (fun p => p.writeSweep en period neg shift) s

/-- `W4002` (R202). -/
def execW4002 (tlow : Byte) (s : State) : Result :=
  updatePulse .one (fun p => p.writeTimerLow s.params.sweepOnesAdj tlow) s

/-- `W4003` (R203). -/
def execW4003 (lenidx : BitVec 5) (thigh : BitVec 3) (s : State) : Result :=
  updatePulse .one (fun p => p.writeTimerHigh s.params lenidx thigh) s

/-! ### Pulse channel 2 -/

/-- `W4004` (R204). -/
def execW4004 (duty : BitVec 2) (haltloop const : Bool) (level : BitVec 4) (s : State) : Result :=
  updatePulse .two (fun p => p.writeDuty duty haltloop const level) s

/-- `W4005` (R205). -/
def execW4005 (en : Bool) (period : BitVec 3) (neg : Bool) (shift : BitVec 3) (s : State) : Result :=
  updatePulse .two (fun p => p.writeSweep en period neg shift) s

/-- `W4006` (R206). -/
def execW4006 (tlow : Byte) (s : State) : Result :=
  updatePulse .two (fun p => p.writeTimerLow s.params.sweepOnesAdj tlow) s

/-- `W4007` (R207). -/
def execW4007 (lenidx : BitVec 5) (thigh : BitVec 3) (s : State) : Result :=
  updatePulse .two (fun p => p.writeTimerHigh s.params lenidx thigh) s

/-! ### Triangle channel -/

/-- `W4008` (R208). -/
def execW4008 (control : Bool) (reload : BitVec 7) (s : State) : Result :=
  updateTriangle (fun t => { t with lin := t.lin.write control reload, len := t.len.setHalt control }) s

/-- `W400A` (R209). -/
def execW400A (tlow : Byte) (s : State) : Result :=
  updateTriangle (fun t => { t with timer := t.timer.setPeriod (periodWithLow t.timer.period tlow) }) s

/-- `W400B` (R210). -/
def execW400B (lenidx : BitVec 5) (thigh : BitVec 3) (s : State) : Result :=
  updateTriangle (fun t =>
    { t with
      timer := t.timer.setPeriod (periodWithHigh t.timer.period thigh)
      len := t.len.load lenidx
      lin := t.lin.restart }) s

/-! ### Noise channel -/

/-- `W400C` (R211). -/
def execW400C (haltloop const : Bool) (level : BitVec 4) (s : State) : Result :=
  updateNoise (fun n => { n with len := n.len.setHalt haltloop, env := n.env.write haltloop const level }) s

/-- `W400E` (R213): the index selects the period from `NOISE_PERIOD`. -/
def execW400E (mode : Bool) (pidx : BitVec 4) (s : State) : Result :=
  updateNoise (fun n =>
    { n with
      lfsr := n.lfsr.setMode mode
      timer := n.timer.setPeriod (s.params.noisePeriod.get pidx.toFin) }) s

/-- `W400F` (R214). -/
def execW400F (lenidx : BitVec 5) (s : State) : Result :=
  updateNoise (fun n => { n with len := n.len.load lenidx, env := n.env.restart }) s

/-! ### Ignored addresses (R217) -/

/-- `W4009`. -/
def execW4009 (s : State) : Result := ignoredWrite s

/-- `W400D`. -/
def execW400D (s : State) : Result := ignoredWrite s

/-- `W4010`. -/
def execW4010 (s : State) : Result := ignoredWrite s

/-- `W4011`. -/
def execW4011 (s : State) : Result := ignoredWrite s

/-- `W4012`. -/
def execW4012 (s : State) : Result := ignoredWrite s

/-- `W4013`. -/
def execW4013 (s : State) : Result := ignoredWrite s

/-! ### Enable write and status read -/

/-- The enable write (R212): one bit per channel, and the mask. -/
def Apu.writeEnable (a : Apu) (noise triangle pulse2 pulse1 : Bool) : Apu :=
  { a with
    pulse1 := { a.pulse1 with len := a.pulse1.len.setEnabled pulse1 }
    pulse2 := { a.pulse2 with len := a.pulse2.len.setEnabled pulse2 }
    triangle := { a.triangle with len := a.triangle.len.setEnabled triangle }
    noise := { a.noise with len := a.noise.len.setEnabled noise }
    enabledChannelsMask := bit noise ++ bit triangle ++ bit pulse2 ++ bit pulse1 }

/-- `W4015` (R212). -/
def execW4015 (noise triangle pulse2 pulse1 : Bool) (s : State) : Result :=
  finish .nothing (s.withApu (s.apu.writeEnable noise triangle pulse2 pulse1))

/-- `R4015` (R215): the value, and the frame interrupt latch cleared. -/
def execR4015 (s : State) : Result :=
  finish (.status (statusValue s.apu)) (s.withApu { s.apu with fs := s.apu.fs.clearIrq })

end Sys2Proof.Machine
end

