-- ==== Sys2Proof/Machine/Clock.lean ====
section
/-! DEFINITION. The master clock (R190) and the CPU cycle (R191); the meaning of the row `MCLK`. -/

namespace Sys2Proof.Machine

/-- The half-rate timers, clocked when `evenCycleParity` (R105, R191). -/
def Apu.clockHalfRateTimers (ps : Params) (a : Apu) : Apu :=
  { a with
    pulse1 := a.pulse1.clockTimer ps.minPeriod.pulse1
    pulse2 := a.pulse2.clockTimer ps.minPeriod.pulse2
    noise := a.noise.clockTimer ps.minPeriod.noise }

/-- The timer part of a CPU cycle: triangle always, the others on even parity, then the parity toggles (R191). -/
def Apu.clockTimers (ps : Params) (a : Apu) : Apu :=
  let t : Apu := { a with triangle := a.triangle.clockTimer ps.minPeriod.triangle }
  let u := if a.evenCycleParity then t.clockHalfRateTimers ps else t
  { u with evenCycleParity := !a.evenCycleParity }

/-- `Apu.CpuCycle()`: the frame sequencer's two ticks first, then the timers (R191). -/
def Apu.cpuCycle (ps : Params) (a : Apu) : Apu := ((a.halfTick ps).halfTick ps).clockTimers ps

/-- `Apu.MasterClock()`: a CPU cycle on phase 0, then the phase advances modulo `APU_DIV` (R190). -/
def Apu.masterClock (ps : Params) (a : Apu) : Apu :=
  let c := if a.masterClockPhase = 0 then a.cpuCycle ps else a
  { c with masterClockPhase := (a.masterClockPhase + 1) % ps.apuDiv }

/-- `MCLK` (R190). -/
def execMclk (s : State) : Result := finish .nothing (s.withApu (s.apu.masterClock s.params))

end Sys2Proof.Machine
end

