-- ==== Sys2Proof/Machine/Mixer.lean ====
section
/-! DEFINITION. The channel outputs (R226 to R229) and the mixer (R230 to R234): `Mix`, a function of the state, over
the exact rationals. -/

namespace Sys2Proof.Machine

/-- `Pulse1.GetValue()` and `Pulse2.GetValue()` (R226, R227); `sweep.silenced` is the stored flag. -/
def Pulse.output (ps : Params) (p : Pulse) : BitVec 4 :=
  if p.sweep.silenced then 0
  else if p.len.silent then 0
  else if p.seq.value ps then p.env.volume
  else 0

/-- `Triangle.GetValue()` (R228): the linear counter does not silence. -/
def Triangle.output (t : Triangle) : BitVec 4 := if t.len.silent then 0 else triTable t.step

/-- `Noise.GetValue()` (R229). -/
def Noise.output (n : Noise) : BitVec 4 :=
  if n.len.silent then 0
  else if n.lfsr.silent then 0
  else n.env.volume

/-- `PT[i]` (R230): `95.52 / (8128 / i + 100)`, and 0 at 0. -/
def pulseTable (i : Nat) : ℚ := if i = 0 then 0 else (9552 / 100) / (8128 / i + 100)

/-- `TT[i]` (R231): `163.67 / (24329 / i + 100)`, and 0 at 0. -/
def triangleNoiseTable (i : Nat) : ℚ := if i = 0 then 0 else (16367 / 100) / (24329 / i + 100)

/-- The index into `PT` (R232). -/
def pulseIndex (ps : Params) (a : Apu) : Nat := (a.pulse1.output ps).toNat + (a.pulse2.output ps).toNat

/-- The index into `TT`; the DMC term is fixed at 0 (R232). -/
def triangleNoiseIndex (a : Apu) : Nat := 3 * a.triangle.output.toNat + 2 * a.noise.output.toNat + 0

/-- The observation `Mix` (R232). -/
def State.mix (s : State) : ℚ :=
  pulseTable (pulseIndex s.params s.apu) + triangleNoiseTable (triangleNoiseIndex s.apu)

end Sys2Proof.Machine
end

