-- ==== Sys2Proof/Machine/Translate.lean ====
section
/-! DEFINITION. The address translation of every variant (R250 to R263, R284, R285, R298, R299), the mapper contract
(R240 to R245) and the observation `MirrorMode` (R246). -/

namespace Sys2Proof.Machine

/-! ### Program offsets -/

/-- Fixed program banking, mappers 0 and 3 (R250, R256): the offset is `(a & 0x7FFF) mod PRG_SIZE`. -/
def fixedPrgOffset (c : Cartridge) (a : CpuAddr) : Nat := prgOffset c 0 0x8000 a

/-- Mapper 2 (R253). -/
def m2PrgOffset (c : Cartridge) (prgBank : BitVec 4) (a : CpuAddr) : Nat :=
  if a < 0xC000#16 then prgOffset c prgBank.toNat 0x4000 a else prgOffset c (lastPrgBank16 c) 0x4000 a

/-- Mapper 7 (R259). -/
def m7PrgOffset (c : Cartridge) (m : OneScreenBank) (a : CpuAddr) : Nat := prgOffset c m.prgBank.toNat 0x8000 a

/-- Mappers 66 and 140 (R262). -/
def pairPrgOffset (c : Cartridge) (m : BankPair) (a : CpuAddr) : Nat := prgOffset c m.prgBank.toNat 0x8000 a

/-- The fields of mapper 1's control register (R281). -/
def Mmc1.mirror (m : Mmc1) : BitVec 2 := m.control.extractLsb' 0 2
def Mmc1.prgMode (m : Mmc1) : BitVec 2 := m.control.extractLsb' 2 2
def Mmc1.chrMode (m : Mmc1) : Bool := m.control.getLsbD 4

/-- Mapper 1 (R284). -/
def m1PrgOffset (c : Cartridge) (m : Mmc1) (a : CpuAddr) : Nat :=
  if m.prgMode = 0#2 || m.prgMode = 1#2 then prgOffset c (m.prgBank.toNat >>> 1) 0x8000 a
  else if m.prgMode = 2#2 then
    if a < 0xC000#16 then prgOffset c 0 0x4000 a else prgOffset c m.prgBank.toNat 0x4000 a
  else
    if a < 0xC000#16 then prgOffset c m.prgBank.toNat 0x4000 a else prgOffset c (lastPrgBank16 c) 0x4000 a

/-- Mapper 4's 8 KiB bank of an address, by slot `a[14:13]` and `prgMode` (R298). -/
def m4PrgBank (c : Cartridge) (m : Mmc3) (a : CpuAddr) : Nat :=
  let slot := a.extractLsb' 13 2
  if slot = 0#2 then (if m.prgMode then prgBanks8 c - 2 else m.R[6].toNat)
  else if slot = 1#2 then m.R[7].toNat
  else if slot = 2#2 then (if m.prgMode then m.R[6].toNat else prgBanks8 c - 2)
  else prgBanks8 c - 1

/-- Mapper 4 (R298). -/
def m4PrgOffset (c : Cartridge) (m : Mmc3) (a : CpuAddr) : Nat := prgOffset c (m4PrgBank c m a) 0x2000 a

/-! ### Graphics offsets -/

/-- Fixed graphics banking, mappers 0, 2 and 7 (R251, R254, R260): the offset is `a mod CHR_SIZE`. -/
def fixedChrOffset (c : Cartridge) (a : PpuAddr) : Nat := chrOffset c 0 0x2000 a

/-- Mapper 3 (R257). -/
def m3ChrOffset (c : Cartridge) (chrBank : BitVec 2) (a : PpuAddr) : Nat := chrOffset c chrBank.toNat 0x2000 a

/-- Mappers 66 and 140 (R263). -/
def pairChrOffset (c : Cartridge) (m : BankPair) (a : PpuAddr) : Nat := chrOffset c m.chrBank.toNat 0x2000 a

/-- Mapper 1 (R285). -/
def m1ChrOffset (c : Cartridge) (m : Mmc1) (a : PpuAddr) : Nat :=
  if m.chrMode then
    if a < 0x1000#14 then chrOffset c m.chrBank0.toNat 0x1000 a else chrOffset c m.chrBank1.toNat 0x1000 a
  else chrOffset c (m.chrBank0.toNat >>> 1) 0x2000 a

/-- One 1 KiB half of a 2 KiB bank: `(R & 0xFE) | a'[10]` (R299). -/
def twoKiBank (r : Byte) (upper : Bool) : Nat := ((r &&& 0xFE#8) ||| (bit upper).setWidth 8).toNat

/-- Mapper 4's 1 KiB bank of an address; `chrMode` exchanges the two halves (R299). -/
def m4ChrBank (m : Mmc3) (a : PpuAddr) : Nat :=
  let a' := a ^^^ (if m.chrMode then 0x1000#14 else 0#14)
  let region := a'.extractLsb' 11 2
  if region = 0#2 then twoKiBank m.R[0] (a'.getLsbD 10)
  else if region = 1#2 then twoKiBank m.R[1] (a'.getLsbD 10)
  else if region = 2#2 then (if a'.getLsbD 10 then m.R[3].toNat else m.R[2].toNat)
  else (if a'.getLsbD 10 then m.R[5].toNat else m.R[4].toNat)

/-- Mapper 4 (R299). -/
def m4ChrOffset (c : Cartridge) (m : Mmc3) (a : PpuAddr) : Nat := chrOffset c (m4ChrBank m a) 0x400 a

/-- The offset `MapPpuRead(a)` gives for the installed variant, which `MAP.PPUW` uses too (R247). -/
def patternOffset (s : State) (a : PpuAddr) : Nat :=
  match s.map with
  | .m0 => fixedChrOffset s.cart a
  | .m1 m => m1ChrOffset s.cart m a
  | .m2 _ => fixedChrOffset s.cart a
  | .m3 b => m3ChrOffset s.cart b a
  | .m4 m => m4ChrOffset s.cart m a
  | .m7 _ => fixedChrOffset s.cart a
  | .m66 m => pairChrOffset s.cart m a
  | .m140 m => pairChrOffset s.cart m a

/-- The offset a program read gives for the installed variant. -/
def programOffset (s : State) (a : CpuAddr) : Nat :=
  match s.map with
  | .m0 => fixedPrgOffset s.cart a
  | .m1 m => m1PrgOffset s.cart m a
  | .m2 b => m2PrgOffset s.cart b a
  | .m3 _ => fixedPrgOffset s.cart a
  | .m4 m => m4PrgOffset s.cart m a
  | .m7 m => m7PrgOffset s.cart m a
  | .m66 m => pairPrgOffset s.cart m a
  | .m140 m => pairPrgOffset s.cart m a

/-! ### The mapper contract (R240, R241, R245) -/

/-- `MapCpuRead(a)`. -/
def mapCpuRead (s : State) (a : CpuAddr) : Translation :=
  if cartAddr a then .prg (programOffset s a)
  else if saveAddr a && s.mapper.hasSram then .sram (sramOffset (a.extractLsb' 0 13))
  else .notMine

/-- `MapCpuWrite(a)`: a write consumed as a register write is `Handled`. -/
def mapCpuWrite (s : State) (a : CpuAddr) : Translation :=
  if cartAddr a then (if s.mapper.hasBankPort then .handled else .notMine)
  else if saveAddr a then
    if s.mapper.hasSram then .sram (sramOffset (a.extractLsb' 0 13))
    else if s.mapper = .m140 then .handled
    else .notMine
  else .notMine

/-- `MapPpuRead(a)`. -/
def mapPpuRead (s : State) (a : PpuAddr) : Translation :=
  if patternAddr a then .chr (patternOffset s a) else .notMine

/-- `MapPpuWrite(a)`: claimed only when `CHR` is RAM (R247). -/
def mapPpuWrite (s : State) (a : PpuAddr) : Translation :=
  if patternAddr a && chrIsRam s.cart then .chr (patternOffset s a) else .notMine

/-- What a bus event returns, from its translation (R242). -/
def answerOfRead (s : State) : Translation → Answer
  | .prg o => .read .prg o (s.byteAt .prg o)
  | .chr o => .read .chr o (s.byteAt .chr o)
  | .sram o => .read .sram o (s.byteAt .sram o)
  | .handled => .handled
  | .notMine => .notMine

/-- What a bus write returns, from its translation (R242). -/
def answerOfWrite : Translation → Answer
  | .prg o => .stored .prg o
  | .chr o => .stored .chr o
  | .sram o => .stored .sram o
  | .handled => .handled
  | .notMine => .notMine

/-! ### Mirroring (R246) -/

/-- Mapper 1's mirror codes (R286). -/
def m1MirrorMode (m : Mmc1) : MirrorMode :=
  if m.mirror = 0#2 then .oneScreenLo
  else if m.mirror = 1#2 then .oneScreenHi
  else if m.mirror = 2#2 then .vertical
  else .horizontal

/-- `HW_MIRROR` as a mode. -/
def hwMirrorMode (c : Cartridge) : MirrorMode :=
  match c.hwMirror with
  | .horizontal => .horizontal
  | .vertical => .vertical

/-- The observation `MirrorMode` (R246, R286, R300, R258). -/
def State.mirrorMode (s : State) : MirrorMode :=
  match s.map with
  | .m1 m => m1MirrorMode m
  | .m4 m => if m.mirror then .horizontal else .vertical
  | .m7 m => if m.mirrorSel then .oneScreenHi else .oneScreenLo
  | .m0 | .m2 _ | .m3 _ | .m66 _ | .m140 _ => hwMirrorMode s.cart

end Sys2Proof.Machine
end

