-- ==== Sys2Proof/Machine/MapperSimple.lean ====
section
/-! DEFINITION. The rows of mappers 0, 2, 3, 7, 66 and 140 (R250 to R264), `MAP.PPUW` (R247) and `NOP.NOTMINE` (R90). -/

namespace Sys2Proof.Machine

/-- A program read on the variants that have the row (R242). -/
def readProgram (ms : List Mapper) (a : CpuAddr) (s : State) : Result :=
  s.onMapper ms (readStorage .prg (programOffset s a) s)

/-- A pattern-table read on the variants that have the row (R242). -/
def readPattern (ms : List Mapper) (a : PpuAddr) (s : State) : Result :=
  s.onMapper ms (readStorage .chr (patternOffset s a) s)

/-- A bank register write of the variants `ms`: it replaces the mapper state and returns `Handled` (R241). -/
def writeBank (ms : List Mapper) (m : MapState) (s : State) : Result :=
  s.onMapper ms (finish .handled (s.withMap m))

/-! ### Mapper 0 -/

/-- `M0.CPUR` (R250). -/
def execM0Cpur (a : CpuAddr) (s : State) : Result := readProgram [.m0] a s

/-- `M0.PPUR` (R251). -/
def execM0Ppur (a : PpuAddr) (s : State) : Result := readPattern [.m0] a s

/-! ### Mapper 2 -/

/-- `M2.BANK` (R252). -/
def execM2Bank (prg : BitVec 4) (s : State) : Result := writeBank [.m2] (.m2 prg) s

/-- `M2.CPUR` (R253). -/
def execM2Cpur (a : CpuAddr) (s : State) : Result := readProgram [.m2] a s

/-- `M2.PPUR` (R254). -/
def execM2Ppur (a : PpuAddr) (s : State) : Result := readPattern [.m2] a s

/-! ### Mapper 3 -/

/-- `M3.BANK` (R255). -/
def execM3Bank (chr : BitVec 2) (s : State) : Result := writeBank [.m3] (.m3 chr) s

/-- `M3.CPUR` (R256). -/
def execM3Cpur (a : CpuAddr) (s : State) : Result := readProgram [.m3] a s

/-- `M3.PPUR` (R257). -/
def execM3Ppur (a : PpuAddr) (s : State) : Result := readPattern [.m3] a s

/-! ### Mapper 7 -/

/-- `M7.BANK` (R258). -/
def execM7Bank (mirror : Bool) (prg : BitVec 3) (s : State) : Result :=
  writeBank [.m7] (.m7 { prgBank := prg, mirrorSel := mirror }) s

/-- `M7.CPUR` (R259). -/
def execM7Cpur (a : CpuAddr) (s : State) : Result := readProgram [.m7] a s

/-- `M7.PPUR` (R260). -/
def execM7Ppur (a : PpuAddr) (s : State) : Result := readPattern [.m7] a s

/-! ### Mappers 66 and 140 -/

/-- `M66.BANK` (R261). -/
def execM66Bank (prg chr : BitVec 2) (s : State) : Result :=
  writeBank [.m66] (.m66 { prgBank := prg, chrBank := chr }) s

/-- `M140.BANK` (R264). -/
def execM140Bank (prg chr : BitVec 2) (s : State) : Result :=
  writeBank [.m140] (.m140 { prgBank := prg, chrBank := chr }) s

/-- `M66.CPUR`, mappers 66 and 140 (R262, R94). -/
def execM66Cpur (a : CpuAddr) (s : State) : Result := readProgram [.m66, .m140] a s

/-- `M66.PPUR`, mappers 66 and 140 (R263, R94). -/
def execM66Ppur (a : PpuAddr) (s : State) : Result := readPattern [.m66, .m140] a s

/-! ### Every mapper -/

/-- `MAP.PPUW` (R247): graphics RAM is written through the read's translation; with graphics ROM it is not claimed. -/
def execMapPpuw (a : PpuAddr) (d : Byte) (s : State) : Result :=
  if chrIsRam s.cart then writeChr (patternOffset s a) d s else finish .notMine s

/-- `NOP.NOTMINE` (R90). -/
def execNopNotmine (s : State) : Result := finish .notMine s

end Sys2Proof.Machine
end

