-- ==== Sys2Proof/Machine/Mmc1.lean ====
section
/-! DEFINITION. The rows of mapper 1 (R280 to R289). -/

namespace Sys2Proof.Machine

/-- The commit of a completed load: the register chosen by `sel` (R283). -/
def Mmc1.commit (m : Mmc1) (sel : BitVec 2) (v : BitVec 5) : Mmc1 :=
  if sel = 0#2 then { m with control := v }
  else if sel = 1#2 then { m with chrBank0 := v }
  else if sel = 2#2 then { m with chrBank1 := v }
  else { m with prgBank := v.extractLsb' 0 4 }

/-- The serial port (R283): `rst` aborts and sets `prgMode` to 3; the write that finds the marker in bit 0 commits. -/
def Mmc1.load (m : Mmc1) (sel : BitVec 2) (rst d : Bool) : Mmc1 :=
  if rst then { m with shift := 0b10000#5, control := m.control ||| 0x0C#5 }
  else
    let v : BitVec 5 := bit d ++ m.shift.extractLsb' 1 4
    if m.shift.getLsbD 0 then { m.commit sel v with shift := 0b10000#5 } else { m with shift := v }

/-- `M1.LOAD` (R283). -/
def execM1Load (sel : BitVec 2) (rst d : Bool) (s : State) : Result :=
  s.onM1 fun m => finish .handled (s.withMap (.m1 (m.load sel rst d)))

/-- `M1.CPUR` (R284). -/
def execM1Cpur (a : CpuAddr) (s : State) : Result := readProgram [.m1] a s

/-- `M1.PPUR` (R285). -/
def execM1Ppur (a : PpuAddr) (s : State) : Result := readPattern [.m1] a s

/-- `M1.SRAMR` (R287). -/
def execM1Sramr (offset : BitVec 13) (s : State) : Result :=
  s.onMapper [.m1] (readStorage .sram (sramOffset offset) s)

/-- `M1.SRAMW` (R287). -/
def execM1Sramw (offset : BitVec 13) (d : Byte) (s : State) : Result :=
  s.onMapper [.m1] (writeSram (sramOffset offset) d s)

end Sys2Proof.Machine
end

