-- ==== Sys2Proof/Machine/Mmc3.lean ====
section
/-! DEFINITION. The rows of mapper 4 (R295 to R310), and the scanline and acknowledge events on every variant. -/

namespace Sys2Proof.Machine

/-- A mapper 4 register write: it changes the mapper state and returns `Handled` (R241). -/
def updateM4 (f : Mmc3 → Mmc3) (s : State) : Result :=
  s.onM4 fun m => finish .handled (s.withMap (.m4 (f m)))

/-- `M4.BANKSEL` (R296). -/
def execM4Banksel (chrMode prgMode : Bool) (target : BitVec 3) (s : State) : Result :=
  updateM4 (fun m => { m with target := target, prgMode := prgMode, chrMode := chrMode }) s

/-- `M4.BANKDATA` (R297): the register chosen by `target`. -/
def execM4Bankdata (d : Byte) (s : State) : Result :=
  updateM4 (fun m => { m with R := m.R.set m.target.toNat d m.target.isLt }) s

/-- `M4.MIRROR` (R300). -/
def execM4Mirror (mirror : Bool) (s : State) : Result := updateM4 (fun m => { m with mirror := mirror }) s

/-- `M4.RAMPROT` (R301): accepted, no state changes. -/
def execM4Ramprot (s : State) : Result := updateM4 (fun m => m) s

/-- `M4.IRQLATCH` (R303). -/
def execM4Irqlatch (d : Byte) (s : State) : Result := updateM4 (fun m => { m with irqReloadValue := d }) s

/-- `M4.IRQRELOAD` (R304). -/
def execM4Irqreload (s : State) : Result := updateM4 (fun m => { m with reloadPending := true }) s

/-- `M4.IRQDIS` (R305): it also acknowledges. -/
def execM4Irqdis (s : State) : Result := updateM4 (fun m => { m.clearIrq with irqEnabled := false }) s

/-- `M4.IRQEN` (R306). -/
def execM4Irqen (s : State) : Result := updateM4 (fun m => { m with irqEnabled := true }) s

/-- `M4.SRAMR` (R302). -/
def execM4Sramr (offset : BitVec 13) (s : State) : Result :=
  s.onMapper [.m4] (readStorage .sram (sramOffset offset) s)

/-- `M4.SRAMW` (R302). -/
def execM4Sramw (offset : BitVec 13) (d : Byte) (s : State) : Result :=
  s.onMapper [.m4] (writeSram (sramOffset offset) d s)

/-- `M4.CPUR` (R298). -/
def execM4Cpur (a : CpuAddr) (s : State) : Result := readProgram [.m4] a s

/-- `M4.PPUR` (R299). -/
def execM4Ppur (a : PpuAddr) (s : State) : Result := readPattern [.m4] a s

/-- `CountScanline()` on mapper 4 (R307): a requested reload; a decrement that would pass zero; a decrement. -/
def Mmc3.countScanline (ps : Params) (m : Mmc3) : Mmc3 :=
  if m.reloadPending then
    let loaded : Mmc3 := { m with irqCounter := m.irqReloadValue, reloadPending := false }
    if m.irqReloadValue = 0 && (m.irqEnabled || !ps.m4ZeroReloadNeedsEnable) then loaded.raiseIrq else loaded
  else if m.irqCounter = 0 then
    let loaded : Mmc3 := { m with irqCounter := m.irqReloadValue }
    if m.irqEnabled then loaded.raiseIrq else loaded
  else { m with irqCounter := m.irqCounter - 1 }

/-- `SCANLINE` on mapper 4 (R307). -/
def execScanline (s : State) : Result :=
  s.onM4 fun m => finish .nothing (s.withMap (.m4 (m.countScanline s.params)))

/-- `ACKMAP` on mapper 4 (R308). -/
def execAckmap (s : State) : Result := s.onM4 fun m => finish .nothing (s.withMap (.m4 m.clearIrq))

/-- `SCANLINE.INERT`, every other variant (R248, R288). -/
def execScanlineInert (s : State) : Result := s.onMapper otherThanFour (finish .nothing s)

/-- `ACKMAP.INERT`, every other variant (R248, R288). -/
def execAckmapInert (s : State) : Result := s.onMapper otherThanFour (finish .nothing s)

end Sys2Proof.Machine
end

