-- ==== Sys2Proof/Machine/System.lean ====
section
/-! DEFINITION. The event `RESET` (R350), instantiation with its one refusal (R336), and the host's access to the save
memory outside any event (R240, R39). -/

namespace Sys2Proof.Machine

/-- The state `RESET` leaves: `S.apu` and `S.map` at their reset values, `S.sram` and `S.chr` kept (R350). -/
def State.resetEvent (s : State) : State :=
  (s.withApu (apuReset s.params)).withMap (mapReset s.mapper)

/-- `RESET` (R350). -/
def execReset (s : State) : Result := finish .nothing s.resetEvent

/-- Why no block exists (R336). -/
inductive InstantiationError where
  | unsupportedMapper
deriving DecidableEq, Repr

/-- The mapper of a mapper number (R244); `none` for a number that is not implemented. -/
def mapperOfNumber (n : Nat) : Option Mapper :=
  if n = 0 then some .m0
  else if n = 1 then some .m1
  else if n = 2 then some .m2
  else if n = 3 then some .m3
  else if n = 4 then some .m4
  else if n = 7 then some .m7
  else if n = 66 then some .m66
  else if n = 140 then some .m140
  else none

/-- Instantiate a block from its parameters and the storage contents the host supplies (R6, R336): an unsupported mapper
number or `PRG_CHUNKS = 0` has no block. `sram` is used by the variants that have it (R39). R6 types `prg` and `chr` by
their exact lengths and says nothing of another: a longer image is cut, a shorter one leaves the bytes beyond it at the
free power-on value (DESIGN CHOICE, log 28; log 24 for `sram`). -/
def instantiate (number : Nat) (ps : Params) (c : Cartridge) (prg chr sram : List Byte) :
    Except InstantiationError State :=
  match mapperOfNumber number with
  | none => .error .unsupportedMapper
  | some m =>
    if cartridgeOk c then
      .ok { params := ps
            cart := c
            apu := apuReset ps
            map := mapReset m
            prg := Memory.ofBytes 0 (prg.take (prgSize c))
            chr := Memory.ofBytes 0 (chr.take (chrSize c))
            sram := if m.hasSram then Memory.ofBytes 0 (sram.take sramSize) else []
            events := []
            answer := .nothing }
    else .error .unsupportedMapper

/-- `GetSRam()`: none on a variant without save memory (R240, R248). -/
def getSRam (s : State) : Option (List Byte) :=
  if s.mapper.hasSram then some ((List.range sramSize).map (s.byteAt .sram)) else none

/-- `SetSRam()`: the host's image replaces the save memory; a variant without save memory ignores it (R240, R248). -/
def setSRam (image : List Byte) (s : State) : State :=
  if s.mapper.hasSram then s.withSram (Memory.ofBytes 0 (image.take sramSize)) else s

end Sys2Proof.Machine
end

