-- ==== Sys2Proof/Machine/Trace.lean ====
section
/-! DEFINITION. The trace syntax's pseudo-operations as lists of event words (R92, R93). -/

namespace Sys2Proof.Machine

/-- `mclk n` (R93). -/
def traceMclk (n : Nat) : List EventWord := List.replicate n (evtWord 4#4)

/-- `cpucyc n`: `n * APU_DIV` master clocks (R93). -/
def traceCpucyc (ps : Params) (n : Nat) : List EventWord := traceMclk (n * ps.apuDiv)

/-- `scanline n` (R93). -/
def traceScanline (n : Nat) : List EventWord := List.replicate n (evtWord 5#4)

/-- `m1load $AAAA, v`: the five bits, least significant first (R93). -/
def traceM1load (a : CpuAddr) (v : BitVec 5) : List EventWord :=
  (List.range 5).map (fun i => cpuwWord a ((bit (v.getLsbD i)).setWidth 8))

end Sys2Proof.Machine
end

