-- ==== Sys2Proof/Machine/Dispatch.lean ====
section
/-! DEFINITION. One arm per operation: a direct call of its meaning. -/

namespace Sys2Proof.Machine

def exec (i : Instr) (s : State) : Host.Outcome State Fault Refusal :=
  match i with
  | .w4000 duty haltloop const level => Sys2Proof.Machine.execW4000 duty haltloop const level s
  | .w4001 en period neg shift => Sys2Proof.Machine.execW4001 en period neg shift s
  | .w4002 tlow => Sys2Proof.Machine.execW4002 tlow s
  | .w4003 lenidx thigh => Sys2Proof.Machine.execW4003 lenidx thigh s
  | .w4004 duty haltloop const level => Sys2Proof.Machine.execW4004 duty haltloop const level s
  | .w4005 en period neg shift => Sys2Proof.Machine.execW4005 en period neg shift s
  | .w4006 tlow => Sys2Proof.Machine.execW4006 tlow s
  | .w4007 lenidx thigh => Sys2Proof.Machine.execW4007 lenidx thigh s
  | .w4008 control reload => Sys2Proof.Machine.execW4008 control reload s
  | .w4009 => Sys2Proof.Machine.execW4009 s
  | .w400A tlow => Sys2Proof.Machine.execW400A tlow s
  | .w400B lenidx thigh => Sys2Proof.Machine.execW400B lenidx thigh s
  | .w400C haltloop const level => Sys2Proof.Machine.execW400C haltloop const level s
  | .w400D => Sys2Proof.Machine.execW400D s
  | .w400E mode pidx => Sys2Proof.Machine.execW400E mode pidx s
  | .w400F lenidx => Sys2Proof.Machine.execW400F lenidx s
  | .w4010 => Sys2Proof.Machine.execW4010 s
  | .w4011 => Sys2Proof.Machine.execW4011 s
  | .w4012 => Sys2Proof.Machine.execW4012 s
  | .w4013 => Sys2Proof.Machine.execW4013 s
  | .w4015 noise triangle pulse2 pulse1 => Sys2Proof.Machine.execW4015 noise triangle pulse2 pulse1 s
  | .w4017 mode inhibit => Sys2Proof.Machine.execW4017 mode inhibit s
  | .r4015 => Sys2Proof.Machine.execR4015 s
  | .mclk => Sys2Proof.Machine.execMclk s
  | .scanline => Sys2Proof.Machine.execScanline s
  | .scanlineInert => Sys2Proof.Machine.execScanlineInert s
  | .reset => Sys2Proof.Machine.execReset s
  | .ackapu => Sys2Proof.Machine.execAckapu s
  | .ackmap => Sys2Proof.Machine.execAckmap s
  | .ackmapInert => Sys2Proof.Machine.execAckmapInert s
  | .m4Banksel chrMode prgMode target => Sys2Proof.Machine.execM4Banksel chrMode prgMode target s
  | .m4Bankdata d => Sys2Proof.Machine.execM4Bankdata d s
  | .m4Mirror mirror => Sys2Proof.Machine.execM4Mirror mirror s
  | .m4Ramprot => Sys2Proof.Machine.execM4Ramprot s
  | .m4Irqlatch d => Sys2Proof.Machine.execM4Irqlatch d s
  | .m4Irqreload => Sys2Proof.Machine.execM4Irqreload s
  | .m4Irqdis => Sys2Proof.Machine.execM4Irqdis s
  | .m4Irqen => Sys2Proof.Machine.execM4Irqen s
  | .m4Sramw offset d => Sys2Proof.Machine.execM4Sramw offset d s
  | .m4Sramr offset => Sys2Proof.Machine.execM4Sramr offset s
  | .m4Cpur a => Sys2Proof.Machine.execM4Cpur a s
  | .m4Ppur a => Sys2Proof.Machine.execM4Ppur a s
  | .m1Load sel rst d => Sys2Proof.Machine.execM1Load sel rst d s
  | .m1Sramw offset d => Sys2Proof.Machine.execM1Sramw offset d s
  | .m1Sramr offset => Sys2Proof.Machine.execM1Sramr offset s
  | .m1Cpur a => Sys2Proof.Machine.execM1Cpur a s
  | .m1Ppur a => Sys2Proof.Machine.execM1Ppur a s
  | .m0Cpur a => Sys2Proof.Machine.execM0Cpur a s
  | .m0Ppur a => Sys2Proof.Machine.execM0Ppur a s
  | .m2Bank prg => Sys2Proof.Machine.execM2Bank prg s
  | .m2Cpur a => Sys2Proof.Machine.execM2Cpur a s
  | .m2Ppur a => Sys2Proof.Machine.execM2Ppur a s
  | .m3Bank chr => Sys2Proof.Machine.execM3Bank chr s
  | .m3Cpur a => Sys2Proof.Machine.execM3Cpur a s
  | .m3Ppur a => Sys2Proof.Machine.execM3Ppur a s
  | .m7Bank mirror prg => Sys2Proof.Machine.execM7Bank mirror prg s
  | .m7Cpur a => Sys2Proof.Machine.execM7Cpur a s
  | .m7Ppur a => Sys2Proof.Machine.execM7Ppur a s
  | .m66Bank prg chr => Sys2Proof.Machine.execM66Bank prg chr s
  | .m140Bank prg chr => Sys2Proof.Machine.execM140Bank prg chr s
  | .m66Cpur a => Sys2Proof.Machine.execM66Cpur a s
  | .m66Ppur a => Sys2Proof.Machine.execM66Ppur a s
  | .mapPpuw a d => Sys2Proof.Machine.execMapPpuw a d s
  | .nopNotmine _ _ _ => Sys2Proof.Machine.execNopNotmine s

end Sys2Proof.Machine
end

