-- ==== Sys2Proof/Machine/Step.lean ====
section
/-! DEFINITION. One step: the oldest pending event runs to completion (R9, R57); with no event pending the block holds
its state (R343). -/

namespace Sys2Proof.Machine

/-- The state is a block: a cartridge R336 admits, parameters R6 admits. -/
def State.supported (s : State) : Bool := cartridgeOk s.cart && paramsOk s.params

/-- Take the event word `w`, the rest still pending: decode it on the installed variant and run it (R71, R94). -/
def takeEvent (w : EventWord) (s : State) : Host.Outcome State Fault Refusal :=
  match decode s.mapper w with
  | .ok i => exec i s
  | .error e => .refused (.refusedWord e)

def step (s : State) : Host.Outcome State Fault Refusal :=
  if s.supported then
    match s.events with
    | [] => .next s
    | w :: rest => takeEvent w (s.withEvents rest)
  else .refused .unsupportedCartridge

/-- The event word issued before every pending one, so that the very next step takes it (log 15). -/
def State.withFetchWord (s : State) (nbits w : Nat) : State :=
  s.withEvents (BitVec.ofNat 28 (w % 2 ^ nbits) :: s.events)

end Sys2Proof.Machine
end

