-- ==== Sys2Proof/Safety.lean ====
section
/-! DEFINITION. The invariant of the block: what holds of every state a run reaches, in the terms claims use. -/

namespace Sys2Proof.Machine

/-- The length counter stays within the table's range, and a disabled one is at zero (R17, R122). -/
def LengthCounter.ok (l : LengthCounter) : Prop := l.counter.toNat ≤ 254 ∧ (l.enabled = false → l.counter = 0)

/-- The envelope's level is its divider's period (R18). -/
def Envelope.ok (e : Envelope) : Prop := e.divider.period = e.constantLevel

/-- A pulse channel: its units, and the constant of its sweep unit (R16, R135). -/
def Pulse.ok (usesOnesComplement : Bool) (p : Pulse) : Prop :=
  p.len.ok ∧ p.env.ok ∧ p.sweep.usesOnesComplement = usesOnesComplement

/-- The count of the last entry of a schedule, where the sequence wraps (R177). -/
def scheduleEnd (l : List ScheduleEntry) : Nat := (l.getLast?.map (·.count)).getD 0

/-- The sequencer is inside its schedule, on a whole CPU cycle (R174, R177). A schedule that ends at count 0 is never
reached, and its counter is not bounded (log 10). -/
def FrameSequencer.ok (ps : Params) (fs : FrameSequencer) : Prop :=
  let last := scheduleEnd (scheduleOf ps fs.stepCount)
  (last = 0 ∨ fs.cpuCycleCounter < last) ∧ fs.cpuCycleCounter % 2 = 0

/-- Bit `i` of the mask is the enable flag of channel `i` (R24). -/
def Apu.maskAgrees (a : Apu) : Prop :=
  a.enabledChannelsMask =
    bit a.noise.len.enabled ++ bit a.triangle.len.enabled ++ bit a.pulse2.len.enabled ++ bit a.pulse1.len.enabled

/-- The APU's invariant. -/
structure Apu.Ok (ps : Params) (a : Apu) : Prop where
  phase    : a.masterClockPhase < ps.apuDiv
  fs       : a.fs.ok ps
  pulse1   : a.pulse1.ok true
  pulse2   : a.pulse2.ok false
  triangle : a.triangle.len.ok
  noise    : a.noise.len.ok ∧ a.noise.env.ok
  lfsr     : a.noise.lfsr.shiftRegister ≠ 0
  mask     : a.maskAgrees

/-- The mapper's invariant: mapper 1's shift register always holds its marker bit (R283). -/
def MapState.ok : MapState → Prop
  | .m1 m => m.shift ≠ 0
  | .m0 | .m2 _ | .m3 _ | .m4 _ | .m7 _ | .m66 _ | .m140 _ => True

/-- The storages are in canonical form and inside their sizes; there is save memory only where the variant has it
(R39, R52). -/
structure State.StorageOk (s : State) : Prop where
  prgForm : s.prg.wf = true
  chrForm : s.chr.wf = true
  sramForm : s.sram.wf = true
  prgSize : s.prg.within (prgSize s.cart) = true
  chrSize : s.chr.within (chrSize s.cart) = true
  sramSize : s.sram.within sramSize = true
  noSram : s.mapper.hasSram = false → s.sram = []

/-- The whole invariant. -/
structure State.Inv (s : State) : Prop where
  supported : s.supported = true
  apu : s.apu.Ok s.params
  map : s.map.ok
  storage : s.StorageOk

/-! ### Terms of the frame statements -/

/-- The byte an operation stores to, computed as its meaning computes it (R247, R287, R302); `none` for an operation
that stores nothing. -/
def storedAt (i : Instr) (s : State) : Option (Space × Nat) :=
  match i with
  | .m1Sramw offset _ => some (.sram, sramOffset offset)
  | .m4Sramw offset _ => some (.sram, sramOffset offset)
  | .mapPpuw a _ => if chrIsRam s.cart then some (.chr, patternOffset s a) else none
  | _ => none

/-- The rows of the APU: register writes, status read, master clock and acknowledge (file 47, R182). -/
def isApuRow : Instr → Bool
  | .w4000 .. | .w4001 .. | .w4002 .. | .w4003 .. | .w4004 .. | .w4005 .. | .w4006 .. | .w4007 ..
  | .w4008 .. | .w4009 | .w400A .. | .w400B .. | .w400C .. | .w400D | .w400E .. | .w400F ..
  | .w4010 | .w4011 | .w4012 | .w4013 | .w4015 .. | .w4017 .. | .r4015 | .mclk | .ackapu => true
  | _ => false

/-- The `MAPPER` values for which an operation's row exists, the `variants` column of the opcode table (R94). -/
def rowVariants : Instr → List Mapper
  | .scanline | .ackmap | .m4Banksel .. | .m4Bankdata .. | .m4Mirror .. | .m4Ramprot | .m4Irqlatch .. | .m4Irqreload
  | .m4Irqdis | .m4Irqen | .m4Sramw .. | .m4Sramr .. | .m4Cpur .. | .m4Ppur .. => [.m4]
  | .scanlineInert | .ackmapInert => otherThanFour
  | .m1Load .. | .m1Sramw .. | .m1Sramr .. | .m1Cpur .. | .m1Ppur .. => [.m1]
  | .m0Cpur .. | .m0Ppur .. => [.m0]
  | .m2Bank .. | .m2Cpur .. | .m2Ppur .. => [.m2]
  | .m3Bank .. | .m3Cpur .. | .m3Ppur .. => [.m3]
  | .m7Bank .. | .m7Cpur .. | .m7Ppur .. => [.m7]
  | .m66Bank .. => [.m66]
  | .m140Bank .. => [.m140]
  | .m66Cpur .. | .m66Ppur .. => [.m66, .m140]
  | _ => allMappers

end Sys2Proof.Machine
end

