-- ==== Sys2Proof/Certificates/Slice0/Obligations.lean ====
section
/-! DEFINITION. The statements for the provers. Each formalises numbered rules of spec/, named in its docstring. Where a
statement gives the whole next state, `{ s with … }` says the frame: everything not named is unchanged, every byte of
every storage among it. -/

open Sys2Proof Sys2Proof.Machine

/-! ### Encoding -/

/-- Decode and encode agree on every operation a block with mapper `m` has, at every operand (R70, R71). Choices and
inferences it rests on: the event word and its layout are the spec's decision D1. -/
def Obligations.DecodeOfEncodeIsTheInstruction : Prop :=
  ∀ (m : Mapper) (i : Instr), wellFormed m i = true → decode m (encode i) = .ok i

/-- What the decoder gives is an operation the block has: the row exists for the mapper and the address is in the row's
range (R71, R94). Choices and inferences it rests on: the decoder is the spec's decision D1. -/
def Obligations.DecodedInstructionsAreWellFormed : Prop :=
  ∀ (m : Mapper) (w : EventWord) (i : Instr), decode m w = .ok i → wellFormed m i = true

/-- The decoder refuses kinds 9 to 15 and PPU words with `addr[15:14] != 0`, and nothing else (R71). Choices and
inferences it rests on: the refusals are the spec's decision D1. -/
def Obligations.DecoderRefusesExactlyTheWordsThatAreNoEvent : Prop :=
  ∀ (m : Mapper) (w : EventWord),
    (∃ e, decode m w = .error e) ↔
      (9 ≤ (w.extractLsb' 24 4).toNat ∨
        (((w.extractLsb' 24 4).toNat = 2 ∨ (w.extractLsb' 24 4).toNat = 3) ∧ w.extractLsb' 22 2 ≠ 0#2))

/-- The decoder is the table: the refusals first, then the first row whose variants include the mapper and whose mask
and match fit the word (R94); MAP.PPUW is selected without its condition on the cartridge, which its meaning checks (log
13). Choices and inferences it rests on: the table's conventions are the spec's decision D1; MAP.PPUW without its
condition is the model's reading, log 13. -/
def Obligations.DecoderSelectsTheFirstMatchingTableRow : Prop :=
  ∀ (m : Mapper) (w : EventWord),
    (match decode m w with
      | .ok i => some i.mnemonic
      | .error _ => none) = tableSelect m w

/-- Words the spec writes out decode to the operations it says (R92 and file 95). Choices and inferences it rests on:
the event word is the spec's decision D1. -/
def Obligations.SpecWordsDecodeToTheirOperations : Prop :=
  decode .m0 0x0400308#28 = .ok (.w4003 1 0) ∧
  decode .m0 0x1401500#28 = .ok .r4015 ∧
  decode .m0 0x4000000#28 = .ok .mclk ∧
  decode .m0 0x04000BF#28 = .ok (.w4000 2 true true 15) ∧
  decode .m0 0x040018A#28 = .ok (.w4001 true 0 true 2) ∧
  decode .m0 0x0400E8F#28 = .ok (.w400E true 15) ∧
  decode .m1 0x0800001#28 = .ok (.m1Load 0 false true) ∧
  decode .m2 0x0800013#28 = .ok (.m2Bank 3) ∧
  decode .m4 0x0800006#28 = .ok (.m4Banksel false false 6) ∧
  decode .m4 0x0C00100#28 = .ok .m4Irqreload ∧
  decode .m140 0x0600030#28 = .ok (.m140Bank 3 0) ∧
  decode .m0 0x08000FF#28 = .ok (.nopNotmine .cpuw 0x8000 0xFF)

/-! ### Steps -/

/-- A step takes the oldest pending event and runs the operation its word decodes to on the installed mapper (R9, R71,
R94; the queue is the model's, log 3). Choices and inferences it rests on: the queue of pending events is the model's,
log 3. -/
def Obligations.StepRunsTheDecodedInstruction : Prop :=
  ∀ (s : State) (w : EventWord) (rest : List EventWord) (i : Instr),
    s.supported = true → s.events = w :: rest → decode s.mapper w = .ok i →
      step s = exec i { s with events := rest }

/-- What a step does with nothing to run: with no event pending the block holds its state (R9, R343); a state that is no
block (R336) and a pending word that is no event (R71) stop by name. Choices and inferences it rests on: the queue is
the model's, log 3; the refusal of a state that is no block is the model's, log 11, and of a pending word that is no
event, with no next state, log 12; D36 and D1 are the spec's. -/
def Obligations.StepWithNothingToRunHoldsOrStops : Prop :=
  (∀ s : State, s.supported = true → s.events = [] → step s = .next s) ∧
  (∀ s : State, s.supported = false → step s = .refused .unsupportedCartridge) ∧
  (∀ (s : State) (w : EventWord) (rest : List EventWord) (e : DecodeError),
    s.supported = true → s.events = w :: rest → decode s.mapper w = .error e →
      step s = .refused (.refusedWord e))

/-- Every operation the block has completes (R320: "every event word of kinds 0 to 8 is accepted and completes").
Choices and inferences it rests on: the answers D19, D22 and D23 of the table are the spec's own. -/
def Obligations.EveryWellFormedInstructionCompletes : Prop :=
  ∀ (i : Instr) (s : State), wellFormed s.mapper i = true →
    ∃ t, exec i s = .next t ∧ t.mapper = s.mapper ∧ t.events = s.events

/-- A row the table does not give the installed mapper stops by name (R94; the refusal is the model's, log 14). Choices
and inferences it rests on: the refusal is the model's choice, log 14. -/
def Obligations.RowsOfAnotherMapperStopByName : Prop :=
  ∀ (i : Instr) (s : State), s.mapper ∉ rowVariants i → exec i s = .refused .absentOnThisMapper

/-! ### Invariants and whole-machine rules -/

/-- Every step from a state that meets the invariant gives a state that meets it: counters inside their ranges and
schedules, the envelope's period equal to its level, the noise register and mapper 1's shift register never zero, the
enable mask equal to the enable flags, every storage in canonical form and inside its size (R15 to R24, R122, R167).
Choices and inferences it rests on: the widths and the envelope's equality are the spec's D9 and D10; the canonical form
of storage is the model's, log 6. -/
def Obligations.StepKeepsTheInvariant : Prop :=
  ∀ s t : State, s.Inv → step s = .next t → t.Inv

/-- The state after reset meets the invariant, has nothing pending, is what the event `RESET` leaves of it, and has the
default parameters of R6 (R350, R108, R158, R176); bit `step` of a duty row is `DUTY[duty][step]`. Choices and
inferences it rests on: the reset values are the spec's D30, the defaults its D3, D7, D8, D12, D15, D16, D18 and D29;
the cartridge of State.reset is the model's, log 2, taking the defaults log 18, the empty queue log 3 and the answer log
4. -/
def Obligations.ResetMeetsTheInvariant : Prop :=
  State.reset.Inv ∧ State.reset.events = [] ∧ exec .reset State.reset = .next State.reset ∧
  State.reset.params =
    { apuDiv := 3
      minPeriod := { pulse1 := 0, pulse2 := 0, triangle := 2, noise := 0 }
      noisePeriod := #v[1, 3, 7, 15, 31, 47, 63, 79, 100, 126, 189, 253, 380, 507, 1016, 2033]
      sweepOnesAdj := .plus
      duty := #v[0b00000010, 0b00000110, 0b00011110, 0b11111001]
      pulsePhaseReset := true
      fs5 :=
        [{ count := 14914, quarter := true, half := false, interrupt := false, wrap := false },
         { count := 29828, quarter := true, half := true, interrupt := false, wrap := false },
         { count := 44742, quarter := true, half := false, interrupt := false, wrap := false },
         { count := 52200, quarter := false, half := false, interrupt := false, wrap := false },
         { count := 59660, quarter := true, half := true, interrupt := false, wrap := true }]
      m4ZeroReloadNeedsEnable := true }

/-- No event changes the parameters, the variant, the program storage, or graphics ROM (R13, R53, R244). Choices and
inferences it rests on: graphics ROM when CHR_CHUNKS > 0 is the spec's D25. -/
def Obligations.NoEventChangesParametersVariantOrRom : Prop :=
  ∀ (i : Instr) (s t : State), exec i s = .next t →
    t.params = s.params ∧ t.cart = s.cart ∧ t.mapper = s.mapper ∧ t.events = s.events ∧ t.prg = s.prg ∧
    (s.cart.chrChunks ≠ 0 → t.chr = s.chr)

/-- Every byte of every storage is unchanged but the one the operation stores to (R53, R56). Choices and inferences it
rests on: which storage is writable is the spec's D25 and D26. -/
def Obligations.OnlyTheStoredByteOfMemoryChanges : Prop :=
  ∀ (i : Instr) (s t : State), exec i s = .next t →
    ∀ (sp : Space) (o : Nat), storedAt i s ≠ some (sp, o) → t.byteAt sp o = s.byteAt sp o

/-- The two interrupt latches. The frame interrupt flag is set in one place, step 4 of the 4-step sequence when not
inhibited, and cleared by the acknowledge, the status read, an inhibiting control write and RESET alone (R183, R322).
The mapper interrupt is raised by a scanline event alone, and falls only by the acknowledge, the disabling write and
RESET (R326, R327). Choices and inferences it rests on: R183 is marked derived, the disabling write's acknowledge is the
spec's D29. -/
def Obligations.InterruptLatchesChangeOnlyWhereTheRulesSay : Prop :=
  ∀ (i : Instr) (s t : State), exec i s = .next t →
    (s.apu.fs.interruptFlag = false → t.apu.fs.interruptFlag = true →
      i = .mclk ∧ s.apu.masterClockPhase = 0 ∧ s.apu.fs.stepCount = .four ∧
      s.apu.fs.interruptInhibited = false ∧
      (s.apu.fs.cpuCycleCounter = 59658 ∨ s.apu.fs.cpuCycleCounter = 59659)) ∧
    (s.apu.fs.interruptFlag = true → t.apu.fs.interruptFlag = false →
      i = .ackapu ∨ i = .r4015 ∨ i = .reset ∨ ∃ mode, i = .w4017 mode true) ∧
    (s.mapIrq = false → t.mapIrq = true → i = .scanline) ∧
    (s.mapIrq = true → t.mapIrq = false → i = .ackmap ∨ i = .m4Irqdis ∨ i = .reset)

/-- The APU's events leave the mapper and the three storages alone; every other event but RESET leaves the APU alone
(R13, R59). Choices and inferences it rests on: R59 is marked derived. -/
def Obligations.ApuAndMapperEventsTouchDisjointState : Prop :=
  ∀ (i : Instr) (s t : State), exec i s = .next t →
    (isApuRow i = true → t.map = s.map ∧ t.prg = s.prg ∧ t.chr = s.chr ∧ t.sram = s.sram) ∧
    (isApuRow i = false → i ≠ .reset → t.apu = s.apu)

/-! ### APU register writes -/

/-- `W4000` and `W4004`: duty, halt and loop, constant mode, level and envelope period; no counter and no step changes
(R200, R204). Choices and inferences it rests on: writing the divider's period in both modes is the spec's D10. -/
def Obligations.DutyWritesSetDutyHaltLoopAndLevel : Prop :=
  ∀ (duty : BitVec 2) (haltloop const : Bool) (level : BitVec 4) (s : State),
    let f : Pulse → Pulse := fun p =>
      { p with
        seq := { p.seq with duty := duty }
        len := { p.len with halt := haltloop }
        env := { p.env with
          loop := haltloop
          constantMode := const
          constantLevel := level
          divider := { p.env.divider with period := level } } }
    exec (.w4000 duty haltloop const level) s =
      .next { s with answer := .nothing, apu := { s.apu with pulse1 := f s.apu.pulse1 } } ∧
    exec (.w4004 duty haltloop const level) s =
      .next { s with answer := .nothing, apu := { s.apu with pulse2 := f s.apu.pulse2 } }

/-- `W4001` and `W4005`: the four fields and the reload latch; the target and the gate are not recomputed (R201, R205,
R140). Choices and inferences it rests on: arming the reload is the spec's D17, not recomputing its D11. -/
def Obligations.SweepWritesArmTheReloadAndRecomputeNothing : Prop :=
  ∀ (en : Bool) (period : BitVec 3) (neg : Bool) (shift : BitVec 3) (s : State),
    let f : Pulse → Pulse := fun p =>
      { p with sweep := { p.sweep with
          enabled := en
          divider := { p.sweep.divider with period := period }
          negate := neg
          shiftCount := shift
          reloadPending := true } }
    exec (.w4001 en period neg shift) s =
      .next { s with answer := .nothing, apu := { s.apu with pulse1 := f s.apu.pulse1 } } ∧
    exec (.w4005 en period neg shift) s =
      .next { s with answer := .nothing, apu := { s.apu with pulse2 := f s.apu.pulse2 } }

/-- `W4002` and `W4006`: the low eight bits of the period, the high three kept, the timer's counter kept, the sweep
recomputed from the new period (R202, R206). -/
def Obligations.PulseTimerLowWritesKeepTheHighBitsAndRecompute : Prop :=
  ∀ (tlow : Byte) (s : State),
    let f : Pulse → Pulse := fun p =>
      let period := BitVec.ofNat 11 (p.timer.period.toNat / 256 * 256 + tlow.toNat)
      { p with
        timer := { p.timer with period := period }
        sweep := p.sweep.recompute s.params.sweepOnesAdj period }
    exec (.w4002 tlow) s =
      .next { s with answer := .nothing, apu := { s.apu with pulse1 := f s.apu.pulse1 } } ∧
    exec (.w4006 tlow) s =
      .next { s with answer := .nothing, apu := { s.apu with pulse2 := f s.apu.pulse2 } }

/-- `W4003` and `W4007`: the high three bits of the period with the sweep recomputed, the length load when enabled, the
envelope restart latch, and the step reset when the parameter says so (R203, R207). Choices and inferences it rests on:
the step reset is the spec's D16. -/
def Obligations.PulseTimerHighWritesLoadRestartAndRecompute : Prop :=
  ∀ (lenidx : BitVec 5) (thigh : BitVec 3) (s : State),
    let f : Pulse → Pulse := fun p =>
      let period := BitVec.ofNat 11 (thigh.toNat * 256 + p.timer.period.toNat % 256)
      { p with
        timer := { p.timer with period := period }
        sweep := p.sweep.recompute s.params.sweepOnesAdj period
        len := { p.len with counter := if p.len.enabled then lenTable.get lenidx.toFin else p.len.counter }
        env := { p.env with restartPending := true }
        seq := { p.seq with step := if s.params.pulsePhaseReset then 0 else p.seq.step } }
    exec (.w4003 lenidx thigh) s =
      .next { s with answer := .nothing, apu := { s.apu with pulse1 := f s.apu.pulse1 } } ∧
    exec (.w4007 lenidx thigh) s =
      .next { s with answer := .nothing, apu := { s.apu with pulse2 := f s.apu.pulse2 } }

/-- `W4008`, `W400A`, `W400B`: the triangle's linear counter setup with the halt bit, and the two halves of its period;
no step and no counter but a loaded length changes (R208, R209, R210). Choices and inferences it rests on: the linear
counter's write and restart (R152, R153) the spec takes from general knowledge. -/
def Obligations.TriangleWritesSetLinearCounterAndPeriod : Prop :=
  ∀ (control : Bool) (reload : BitVec 7) (tlow : Byte) (lenidx : BitVec 5) (thigh : BitVec 3) (s : State),
    let t := s.apu.triangle
    exec (.w4008 control reload) s =
      .next { s with answer := .nothing, apu := { s.apu with triangle := { t with
        lin := { t.lin with controlFlag := control, divider := { t.lin.divider with period := reload } }
        len := { t.len with halt := control } } } } ∧
    exec (.w400A tlow) s =
      .next { s with answer := .nothing, apu := { s.apu with triangle := { t with
        timer := { t.timer with period := BitVec.ofNat 11 (t.timer.period.toNat / 256 * 256 + tlow.toNat) } } } } ∧
    exec (.w400B lenidx thigh) s =
      .next { s with answer := .nothing, apu := { s.apu with triangle := { t with
        timer := { t.timer with period := BitVec.ofNat 11 (thigh.toNat * 256 + t.timer.period.toNat % 256) }
        len := { t.len with counter := if t.len.enabled then lenTable.get lenidx.toFin else t.len.counter }
        lin := { t.lin with reloadPending := true } } } }

/-- `W400C`, `W400E`, `W400F`: the noise envelope with the halt bit, the mode and the table's period, the length load
with the envelope restart (R211, R213, R214). Choices and inferences it rests on: writing the divider's period in both
modes is the spec's D10. -/
def Obligations.NoiseWritesSetEnvelopePeriodAndLength : Prop :=
  ∀ (haltloop const : Bool) (level : BitVec 4) (mode : Bool) (pidx : BitVec 4) (lenidx : BitVec 5) (s : State),
    let n := s.apu.noise
    exec (.w400C haltloop const level) s =
      .next { s with answer := .nothing, apu := { s.apu with noise := { n with
        len := { n.len with halt := haltloop }
        env := { n.env with
          loop := haltloop
          constantMode := const
          constantLevel := level
          divider := { n.env.divider with period := level } } } } } ∧
    exec (.w400E mode pidx) s =
      .next { s with answer := .nothing, apu := { s.apu with noise := { n with
        lfsr := { n.lfsr with shortMode := mode }
        timer := { n.timer with period := s.params.noisePeriod.get pidx.toFin } } } } ∧
    exec (.w400F lenidx) s =
      .next { s with answer := .nothing, apu := { s.apu with noise := { n with
        len := { n.len with counter := if n.len.enabled then lenTable.get lenidx.toFin else n.len.counter }
        env := { n.env with restartPending := true } } } }

/-- The six ignored addresses change nothing and return nothing (R217). Choices and inferences it rests on: that the six
addresses are accepted and ignored is the spec's D19. -/
def Obligations.IgnoredWritesChangeNothing : Prop :=
  ∀ (i : Instr) (s : State), i ∈ [Instr.w4009, .w400D, .w4010, .w4011, .w4012, .w4013] →
    exec i s = .next { s with answer := .nothing }

/-- `W4015`: each channel's enable flag, a cleared bit zeroing that channel's length counter, and the mask, whose bit
`i` is channel `i` (R212, R118). -/
def Obligations.EnableWriteSetsFlagsAndZeroesDisabledCounters : Prop :=
  ∀ (noise triangle pulse2 pulse1 : Bool) (s : State),
    let setEnabled : LengthCounter → Bool → LengthCounter := fun l b =>
      { l with enabled := b, counter := if b then l.counter else 0 }
    exec (.w4015 noise triangle pulse2 pulse1) s =
      .next { s with answer := .nothing, apu := { s.apu with
        pulse1 := { s.apu.pulse1 with len := setEnabled s.apu.pulse1.len pulse1 }
        pulse2 := { s.apu.pulse2 with len := setEnabled s.apu.pulse2.len pulse2 }
        triangle := { s.apu.triangle with len := setEnabled s.apu.triangle.len triangle }
        noise := { s.apu.noise with len := setEnabled s.apu.noise.len noise }
        enabledChannelsMask :=
          BitVec.ofNat 4 (pulse1.toNat + 2 * pulse2.toNat + 4 * triangle.toNat + 8 * noise.toNat) } }

/-- `R4015` returns bit `i` set when channel `i`'s length counter is above zero, bits 7:4 zero, and clears the frame
interrupt flag; `ACKAPU` clears the flag (R215, R182). Choices and inferences it rests on: that bits 7:4 of the value
read are zero is the spec's D19. -/
def Obligations.StatusReadAndAcknowledgeClearTheFrameFlag : Prop :=
  ∀ s : State,
    let above : LengthCounter → Nat := fun l => if 0 < l.counter.toNat then 1 else 0
    let cleared : Apu := { s.apu with fs := { s.apu.fs with interruptFlag := false } }
    exec .r4015 s =
      .next { s with
        answer := .status (BitVec.ofNat 8 (above s.apu.pulse1.len + 2 * above s.apu.pulse2.len
          + 4 * above s.apu.triangle.len + 8 * above s.apu.noise.len))
        apu := cleared } ∧
    exec .ackapu s = .next { s with answer := .nothing, apu := cleared }

/-- `W4017`: the sequence selected, the inhibit bit stored, a set flag cleared only when inhibiting, the counter zeroed,
and with mode 1 one quarter-frame and one half-frame pulse (R216, R179). Choices and inferences it rests on: that every
write zeroes the counter and every write with mode 1 pulses is the spec's D18. -/
def Obligations.FrameControlWriteSelectsZeroesAndPulses : Prop :=
  ∀ (mode inhibit : Bool) (s : State),
    let written : Apu := { s.apu with fs :=
      { cpuCycleCounter := 0
        stepCount := if mode then .five else .four
        interruptInhibited := inhibit
        interruptFlag := if inhibit then false else s.apu.fs.interruptFlag } }
    exec (.w4017 mode inhibit) s =
      .next { s with
        answer := .nothing
        apu := if mode then written.quarterFrame.halfFrame s.params.sweepOnesAdj else written }

/-- `RESET`: every APU field and every mapper field at the value of the tables, whatever the state before; the storages,
parameters and pending events are kept (R350, R351, R352). Choices and inferences it rests on: the values are the spec's
D30 but for the noise seed and mapper 1's shift register. -/
def Obligations.ResetEventRestoresTheTables : Prop :=
  ∀ s : State, exec .reset s = .next { s with
    answer := .nothing
    apu :=
      let len : LengthCounter := { enabled := false, halt := false, counter := 0 }
      let env : Envelope :=
        { restartPending := false, loop := false, divider := { period := 0, counter := 0 }, counter := 0
          constantMode := false, constantLevel := 0 }
      let pulse : Bool → Pulse := fun ones =>
        { timer := { period := 0, counter := 0 }
          len := len
          env := env
          sweep :=
            { enabled := false, negate := false, reloadPending := false, shiftCount := 0
              divider := { period := 0, counter := 0 }, targetPeriod := 0, silenced := true
              usesOnesComplement := ones }
          seq := { duty := 0, step := 0 } }
      { masterClockPhase := 0
        evenCycleParity := true
        enabledChannelsMask := 0
        fs := { cpuCycleCounter := 0, stepCount := .four, interruptInhibited := false, interruptFlag := false }
        pulse1 := pulse true
        pulse2 := pulse false
        triangle :=
          { timer := { period := 0, counter := 0 }
            len := len
            lin := { reloadPending := false, controlFlag := false, divider := { period := 0, counter := 0 } }
            step := 0 }
        noise :=
          { timer := { period := s.params.noisePeriod[0], counter := 0 }
            len := len
            env := env
            lfsr := { shiftRegister := 1, shortMode := false } } }
    map :=
      match s.mapper with
      | .m0 => .m0
      | .m1 => .m1 { shift := 0b10000, control := 0x0C, chrBank0 := 0, chrBank1 := 0, prgBank := 0 }
      | .m2 => .m2 0
      | .m3 => .m3 0
      | .m4 => .m4
          { target := 0, prgMode := false, chrMode := false, R := #v[0, 0, 0, 0, 0, 0, 0, 0], mirror := false
            irqCounter := 0, irqReloadValue := 0, irqEnabled := false, irqPending := false, reloadPending := false }
      | .m7 => .m7 { prgBank := 0, mirrorSel := false }
      | .m66 => .m66 { prgBank := 0, chrBank := 0 }
      | .m140 => .m140 { prgBank := 0, chrBank := 0 } }

/-! ### Clocking -/

/-- `MCLK`: a CPU cycle on phase 0, then the phase advances modulo `APU_DIV` (R190). Choices and inferences it rests on:
the division by APU_DIV on phase 0 is the spec's D3. -/
def Obligations.MasterClockRunsACpuCycleOnPhaseZero : Prop :=
  ∀ s : State, exec .mclk s = .next { s with
    answer := .nothing
    apu := { (if s.apu.masterClockPhase = 0 then s.apu.cpuCycle s.params else s.apu) with
      masterClockPhase := (s.apu.masterClockPhase + 1) % s.params.apuDiv } }

/-- `Apu.CpuCycle()`: two half-ticks, then the triangle timer, then on even parity the pulse and noise timers, then the
parity toggles; a pulse fire advances its step, a triangle fire advances its step when both counters are non-zero, a
noise fire clocks the register (R191, R107, R159, R163). Choices and inferences it rests on: the order and the rates are
the spec's D4 and D5, the timer's gate its D7. -/
def Obligations.CpuCycleClocksSequencerThenTimers : Prop :=
  ∀ (ps : Params) (a : Apu),
    let b := (a.halfTick ps).halfTick ps
    let tri := timerClock ps.minPeriod.triangle b.triangle.timer
    let pulse : Nat → Pulse → Pulse := fun mp p =>
      { p with
        timer := (timerClock mp p.timer).1
        seq := { p.seq with step := if (timerClock mp p.timer).2 then p.seq.step + 1 else p.seq.step } }
    let noi := timerClock ps.minPeriod.noise b.noise.timer
    a.cpuCycle ps = { b with
      triangle := { b.triangle with
        timer := tri.1
        step :=
          if tri.2 = true ∧ b.triangle.lin.divider.counter ≠ 0 ∧ b.triangle.len.counter ≠ 0 then b.triangle.step + 1
          else b.triangle.step }
      pulse1 := if b.evenCycleParity then pulse ps.minPeriod.pulse1 b.pulse1 else b.pulse1
      pulse2 := if b.evenCycleParity then pulse ps.minPeriod.pulse2 b.pulse2 else b.pulse2
      noise :=
        if b.evenCycleParity then
          { b.noise with timer := noi.1, lfsr := if noi.2 then b.noise.lfsr.clock else b.noise.lfsr }
        else b.noise
      evenCycleParity := !b.evenCycleParity }

/-- `Fs.HalfTick()`: the counter advances by one; at an entry of the selected schedule its pulses go out, quarter first,
the flag is set at an interrupt entry in 4-step mode unless inhibited, and a wrapping entry zeroes the counter; at no
entry nothing else changes (R177). -/
def Obligations.HalfTickFollowsTheSchedule : Prop :=
  ∀ (ps : Params) (a : Apu), paramsOk ps = true →
    let c := a.fs.cpuCycleCounter + 1
    let schedule := if a.fs.stepCount = .four then fs4 else ps.fs5
    ((∀ e ∈ schedule, e.count ≠ c) →
      a.halfTick ps = { a with fs := { a.fs with cpuCycleCounter := c } }) ∧
    (∀ e ∈ schedule, e.count = c →
      let q := if e.quarter then a.quarterFrame else a
      let h := if e.half then q.halfFrame ps.sweepOnesAdj else q
      a.halfTick ps = { h with fs := { a.fs with
        cpuCycleCounter := if e.wrap then 0 else c
        interruptFlag := a.fs.interruptFlag ||
          (e.interrupt && decide (a.fs.stepCount = .four) && !a.fs.interruptInhibited) } })

/-- The quarter-frame pulse clocks the three envelopes and the linear counter; the half-frame pulse clocks the four
length counters and the two sweep units; each changes nothing else (R180, R181). Choices and inferences it rests on:
which unit answers which pulse is the spec's D6. -/
def Obligations.FramePulsesClockTheirUnits : Prop :=
  ∀ (adj : OnesAdj) (a : Apu),
    a.quarterFrame = { a with
      pulse1 := { a.pulse1 with env := a.pulse1.env.clock }
      pulse2 := { a.pulse2 with env := a.pulse2.env.clock }
      triangle := { a.triangle with lin := a.triangle.lin.clock }
      noise := { a.noise with env := a.noise.env.clock } } ∧
    a.halfFrame adj = { a with
      pulse1 := { (a.pulse1.clockSweep adj) with len := a.pulse1.len.clock }
      pulse2 := { (a.pulse2.clockSweep adj) with len := a.pulse2.len.clock }
      triangle := { a.triangle with len := a.triangle.len.clock }
      noise := { a.noise with len := a.noise.len.clock } }

/-- From a zero counter in 4-step mode: in the first 29830 CPU cycles the quarter pulse goes out in cycles 7457, 14914,
22371 and 29830 and the half pulse in 14914 and 29830, each before the timers of its cycle; the counter reads `2n` after
`n < 29830` cycles with the flag unchanged, and after 29830 it is zero again with the flag set unless inhibited (R178).
Choices and inferences it rests on: R178 is marked derived; it rests on D4. -/
def Obligations.FourStepSequenceTimingLaw : Prop :=
  ∀ (ps : Params) (a : Apu), a.fs.cpuCycleCounter = 0 → a.fs.stepCount = .four →
    (∀ n, n < 29830 →
      let b := (Apu.cpuCycle ps)^[n] a
      b.fs = { a.fs with cpuCycleCounter := 2 * n } ∧
      (n + 1 ∉ [7457, 14914, 22371, 29830] →
        Apu.cpuCycle ps b = ({ b with fs := { b.fs with cpuCycleCounter := 2 * n + 2 } } : Apu).clockTimers ps) ∧
      (n + 1 ∈ [7457, 22371] →
        Apu.cpuCycle ps b =
          ({ b.quarterFrame with fs := { b.fs with cpuCycleCounter := 2 * n + 2 } } : Apu).clockTimers ps) ∧
      (n + 1 = 14914 →
        Apu.cpuCycle ps b =
          ({ (b.quarterFrame.halfFrame ps.sweepOnesAdj) with
              fs := { b.fs with cpuCycleCounter := 2 * n + 2 } } : Apu).clockTimers ps) ∧
      (n + 1 = 29830 →
        Apu.cpuCycle ps b =
          ({ (b.quarterFrame.halfFrame ps.sweepOnesAdj) with
              fs := { a.fs with interruptFlag := a.fs.interruptFlag || !a.fs.interruptInhibited } } : Apu).clockTimers ps)) ∧
    ((Apu.cpuCycle ps)^[29830] a).fs =
      { a.fs with interruptFlag := a.fs.interruptFlag || !a.fs.interruptInhibited }

/-- `cpucyc n`: from any phase, `n * APU_DIV` master clocks run exactly `n` CPU cycles and leave the phase as it was
(R93, R190). Choices and inferences it rests on: the expansion is the spec's D38, the prescaler its D3; the law is
marked derived. -/
def Obligations.CpucycRunsExactlyNCpuCycles : Prop :=
  ∀ (ps : Params) (a : Apu) (n : Nat), a.masterClockPhase < ps.apuDiv →
    (Apu.masterClock ps)^[n * ps.apuDiv] a = (Apu.cpuCycle ps)^[n] a

/-! ### Channel units -/

/-- The period law: from `counter = period = P`, the counter is `P - k` after `k` clocks for `k` up to `P`, those `P`
clocks do not fire, and clock `P + 1` fires and restores the divider (R102). Choices and inferences it rests on: R102 is
marked derived from R100. -/
def Obligations.DividerFiresEveryPeriodPlusOneClocks : Prop :=
  ∀ (w : Nat) (d : Divider w), d.counter = d.period →
    (∀ k, k ≤ d.period.toNat →
      (fun e : Divider w => e.clock.1)^[k] d = { d with counter := BitVec.ofNat w (d.period.toNat - k) }) ∧
    (∀ k, k < d.period.toNat →
      (((fun e : Divider w => e.clock.1)^[k] d).clock).2 = false) ∧
    (((fun e : Divider w => e.clock.1)^[d.period.toNat] d).clock) = (d, true)

/-- The channel timer's gate: below the minimum period it is not clocked and does not fire; otherwise it is the divider,
which reloads and fires at zero and counts down above (R106, R100). Choices and inferences it rests on: that a gated
timer keeps its counter (R106) is the spec's D7. -/
def Obligations.TimerBelowMinimumPeriodStandsStill : Prop :=
  ∀ (w : Nat) (mp : Nat) (d : Divider w),
    (d.period.toNat < mp → timerClock mp d = (d, false)) ∧
    (mp ≤ d.period.toNat → d.counter = 0 → timerClock mp d = ({ d with counter := d.period }, true)) ∧
    (mp ≤ d.period.toNat → d.counter ≠ 0 →
      timerClock mp d = ({ d with counter := BitVec.ofNat w (d.counter.toNat - 1) }, false))

/-- The length counter: a load takes the table's value and is lost while disabled; a clock does nothing while halted and
counts down to zero and stays there otherwise (R117, R119); the table has the 32 values of R116. The linear counter: a
pending reload loads, otherwise it counts down and stays at zero; the pending flag is cleared unless the control flag is
set (R151). Choices and inferences it rests on: the linear counter's clock (R151) the spec takes from general knowledge.
-/
def Obligations.LengthAndLinearCountersLoadAndCountToZero : Prop :=
  (∀ i : Fin 32, (lenTable.get i).toNat =
    [10, 254, 20, 2, 40, 4, 80, 6, 160, 8, 60, 10, 14, 12, 26, 14,
     12, 16, 24, 18, 48, 20, 96, 22, 192, 24, 72, 26, 16, 28, 32, 30].getD i.val 0) ∧
  (∀ (l : LengthCounter) (i : BitVec 5),
    l.load i = { l with counter := if l.enabled then lenTable.get i.toFin else l.counter }) ∧
  (∀ (l : LengthCounter) (n : Nat), l.halt = true → LengthCounter.clock^[n] l = l) ∧
  (∀ (l : LengthCounter) (n : Nat), l.halt = false →
    LengthCounter.clock^[n] l = { l with counter := BitVec.ofNat 8 (l.counter.toNat - n) }) ∧
  (∀ n : LinearCounter,
    n.clock = { n with
      reloadPending := if n.controlFlag then n.reloadPending else false
      divider := { n.divider with
        counter :=
          if n.reloadPending then n.divider.period
          else BitVec.ofNat 7 (n.divider.counter.toNat - 1) } })

/-- The envelope's clock: a pending restart sets level 15 and reloads the divider without clocking it; otherwise the
divider is clocked and a fire lowers the level, or snaps it to 15 from 0 when looping (R127). Choices and inferences it
rests on: that the clock runs the same way in constant mode is the spec's D10. -/
def Obligations.EnvelopeClockRestartsDecaysAndLoops : Prop :=
  ∀ e : Envelope,
    (e.restartPending = true →
      e.clock = { e with restartPending := false, counter := 15, divider := { e.divider with counter := e.divider.period } }) ∧
    (e.restartPending = false → e.divider.counter ≠ 0 →
      e.clock = { e with divider := { e.divider with counter := e.divider.counter - 1 } }) ∧
    (e.restartPending = false → e.divider.counter = 0 →
      e.clock = { e with
        divider := { e.divider with counter := e.divider.period }
        counter :=
          if 0 < e.counter.toNat then BitVec.ofNat 4 (e.counter.toNat - 1)
          else if e.loop then 15
          else 0 })

/-- The decay rate: `n` pulses after the one that takes the restart the divider has fired `n / (level + 1)` times; each
fire lowers the level by one from 15, to stay at 0 without `loop`, and with `loop` the fire after 0 returns it to 15
(R130). Choices and inferences it rests on: R130 is marked derived from R127 and R102. -/
def Obligations.EnvelopeDecaysOnceEveryLevelPlusOnePulses : Prop :=
  ∀ (e : Envelope) (n : Nat), e.restartPending = true → e.divider.period = e.constantLevel →
    let fires := n / (e.constantLevel.toNat + 1)
    (Envelope.clock^[1 + n] e).counter = BitVec.ofNat 4 (15 - (if e.loop then fires % 16 else fires))

/-- The sweep's recompute: the stored target is the formula's value at either `SWEEP_ONES_ADJ`, between 0 and 4094 at
+1; at -1 pulse 1 negates to `P - shifted - 1`, and the one negative value, -1, is stored as 4095, which silences; the
gate is set when the period is below 8 or the target above 0x7FF, whatever `enabled`; at +1 a negating target never sets
it by the second clause (R136, R137). Choices and inferences it rests on: the adjustment is a parameter by the spec's
D12, the value 4095 for -1 is its D13 (log 20); the bounds are marked derived. -/
def Obligations.SweepTargetFollowsTheFormulaAndGates : Prop :=
  ∀ (adj : OnesAdj) (w : Sweep) (p : BitVec 11),
    let shifted := p.toNat / 2 ^ w.shiftCount.toNat
    let r := w.recompute adj p
    (w.negate = false → r.targetPeriod.toNat = p.toNat + shifted) ∧
    (w.negate = true → w.usesOnesComplement = false → r.targetPeriod.toNat = p.toNat - shifted) ∧
    (w.negate = true → w.usesOnesComplement = true → adj = .plus → r.targetPeriod.toNat = p.toNat - shifted + 1) ∧
    (w.negate = true → w.usesOnesComplement = true → adj = .minus →
      r.targetPeriod.toNat = if shifted < p.toNat then p.toNat - shifted - 1 else 4095) ∧
    (adj = .plus → r.targetPeriod.toNat ≤ 4094) ∧
    (adj = .plus → w.negate = true → r.targetPeriod.toNat ≤ 0x7FF) ∧
    (r.targetPeriod.toNat = 4095 → r.silenced = true) ∧
    (r.silenced = true ↔ p.toNat < 8 ∨ 0x7FF < r.targetPeriod.toNat) ∧
    r = { w with targetPeriod := r.targetPeriod, silenced := r.silenced }

/-- The sweep's clock: recompute first; a pending reload reloads the divider, else the divider is clocked; the target is
applied when the divider was at zero and the unit is enabled with a non-zero shift and not silenced, and an applied
target fits the period; the timer's counter, the target and the gate are then left as they are (R138, R139). Choices and
inferences it rests on: recomputing first, and not after an apply, is the spec's D11. -/
def Obligations.SweepClockRecomputesThenApplies : Prop :=
  ∀ (adj : OnesAdj) (p : Pulse),
    let w := p.sweep.recompute adj p.timer.period
    let applies := w.divider.counter = 0 ∧ w.enabled = true ∧ w.shiftCount ≠ 0 ∧ w.silenced = false
    (applies → w.targetPeriod.toNat ≤ 0x7FF) ∧
    p.clockSweep adj = { p with
      timer := { p.timer with
        period := if applies then BitVec.ofNat 11 w.targetPeriod.toNat else p.timer.period }
      sweep := { w with
        reloadPending := false
        divider := { w.divider with
          counter :=
            if w.reloadPending = true ∨ w.divider.counter = 0 then w.divider.period else w.divider.counter - 1 } } }

/-- The noise register: bit 14 receives bit 0 exclusive-or the tap, every other bit the one above it (R166); a non-zero
register stays non-zero (R167). Choices and inferences it rests on: the non-zero clause is R167, an inference the spec
marks as derived from R166. -/
def Obligations.NoiseRegisterShiftsAndStaysNonZero : Prop :=
  ∀ g : NoiseRegister,
    g.clock.shortMode = g.shortMode ∧
    g.clock.shiftRegister.getLsbD 14 =
      (g.shiftRegister.getLsbD 0 ^^ g.shiftRegister.getLsbD (if g.shortMode then 6 else 1)) ∧
    (∀ i, i < 14 → g.clock.shiftRegister.getLsbD i = g.shiftRegister.getLsbD (i + 1)) ∧
    (g.shiftRegister ≠ 0 → g.clock.shiftRegister ≠ 0)

/-! ### Outputs -/

/-- The channel outputs: a pulse is its volume when not silenced, its length counter is above zero and the duty bit is
1; the triangle is the ramp when its length counter is above zero; noise is its volume when its length counter is above
zero and bit 0 of the register is 0; otherwise each is 0 (R226, R227, R228, R229, R128). Choices and inferences it rests
on: which conditions silence the triangle (R228) is the spec's D20. -/
def Obligations.ChannelOutputsAreGated : Prop :=
  let volume : Envelope → BitVec 4 := fun e => if e.constantMode then e.constantLevel else e.counter
  (∀ (ps : Params) (p : Pulse),
    p.output ps =
      if p.sweep.silenced = false ∧ p.len.counter ≠ 0 ∧ (ps.duty.get p.seq.duty.toFin).getLsbD p.seq.step.toNat = true
      then volume p.env else 0) ∧
  (∀ t : Triangle,
    t.output.toNat =
      if t.len.counter = 0 then 0 else if t.step.toNat ≤ 15 then 15 - t.step.toNat else t.step.toNat - 16) ∧
  (∀ n : Noise,
    n.output =
      if n.len.counter ≠ 0 ∧ n.lfsr.shiftRegister.getLsbD 0 = false then volume n.env else 0)

/-- The mixer tables are the exact rationals of the rules and strictly increasing (R230, R231). Choices and inferences
it rests on: entry 0 of the pulse table is the spec's D21. -/
def Obligations.MixerTablesAreTheRulesRationalsAndIncrease : Prop :=
  (∀ i : Nat, pulseTable i = 597 * i / (50800 + 625 * i)) ∧
  (∀ i : Nat, triangleNoiseTable i = 16367 * i / (2432900 + 10000 * i)) ∧
  (∀ i j : Nat, i < j → pulseTable i < pulseTable j ∧ triangleNoiseTable i < triangleNoiseTable j)

/-- The mixer output is the sum of the pulse rational at `p1 + p2` and the triangle-noise rational at `3 t + 2 n`, of
the four channel outputs (R232, R230, R231); these indices are in range and the output lies between 0 and `PT[30] +
TT[75]` (R233). Choices and inferences it rests on: unit gains and entry 0 of the pulse table are the spec's D21, R233
is marked derived, exact rationals are log 17. -/
def Obligations.MixIsBoundedAndItsIndicesInRange : Prop :=
  ∀ s : State,
    let p1 := (s.apu.pulse1.output s.params).toNat
    let p2 := (s.apu.pulse2.output s.params).toNat
    let t := s.apu.triangle.output.toNat
    let n := s.apu.noise.output.toNat
    let i : ℚ := ((p1 + p2 : Nat) : ℚ)
    let j : ℚ := ((3 * t + 2 * n : Nat) : ℚ)
    s.mix = 597 * i / (50800 + 625 * i) + 16367 * j / (2432900 + 10000 * j) ∧
    pulseIndex s.params s.apu = p1 + p2 ∧ triangleNoiseIndex s.apu = 3 * t + 2 * n ∧
    p1 + p2 ≤ 30 ∧ 3 * t + 2 * n ≤ 75 ∧
    0 ≤ s.mix ∧ s.mix ≤ 17910 / 69550 + 1227525 / 3182900

/-- `MirrorMode` per variant (R246, R286, R300, R258). Choices and inferences it rests on: mapper 4's polarity is the
spec's D28, mapper 7's bit its D24. -/
def Obligations.MirrorModeFollowsTheVariant : Prop :=
  ∀ s : State,
    let hw : MirrorMode := if s.cart.hwMirror = .horizontal then .horizontal else .vertical
    (s.mapper ∈ [Mapper.m0, .m2, .m3, .m66, .m140] → s.mirrorMode = hw) ∧
    (∀ m, s.map = .m1 m →
      s.mirrorMode = ([MirrorMode.oneScreenLo, .oneScreenHi, .vertical].getD (m.control.toNat % 4) .horizontal)) ∧
    (∀ m, s.map = .m4 m → s.mirrorMode = if m.mirror then .horizontal else .vertical) ∧
    (∀ m, s.map = .m7 m → s.mirrorMode = if m.mirrorSel then .oneScreenHi else .oneScreenLo)

/-! ### Mapper 1 -/

/-- `M1.LOAD`: `rst` puts back the marker and sets `control` bits 3:2; otherwise the bit enters at bit 4, and when the
marker was in bit 0 the five bits are committed to the register `sel` chooses and the marker is put back (R283). Choices
and inferences it rests on: the reset write's effect and the register ranges past the first are the spec's D27. -/
def Obligations.SerialLoadShiftsOrCommits : Prop :=
  ∀ (s : State) (m : Mmc1) (sel : BitVec 2) (rst d : Bool), s.map = .m1 m →
    let v : BitVec 5 := BitVec.ofNat 5 (16 * d.toNat + m.shift.toNat / 2)
    exec (.m1Load sel rst d) s = .next { s with
      answer := .handled
      map := .m1 (
        if rst then { m with shift := 16, control := m.control ||| 12 }
        else if m.shift.toNat % 2 = 0 then { m with shift := v }
        else if sel = 0 then { m with shift := 16, control := v }
        else if sel = 1 then { m with shift := 16, chrBank0 := v }
        else if sel = 2 then { m with shift := 16, chrBank1 := v }
        else { m with shift := 16, prgBank := BitVec.ofNat 4 v.toNat }) }

/-- Five writes of one load, from the initial shift register: the value with the first-written bit in bit 0 is committed
to the register the fifth write's address chooses, the first four addresses being irrelevant, and the shift register is
back at 0b10000 (R283, R289). Choices and inferences it rests on: the register ranges past the first are the spec's D27.
-/
def Obligations.FiveSerialWritesCommitTheValueLeastSignificantBitFirst : Prop :=
  ∀ (m : Mmc1) (b0 b1 b2 b3 b4 : Bool) (s0 s1 s2 s3 s4 : BitVec 2), m.shift = 16 →
    let v : BitVec 5 :=
      BitVec.ofNat 5 (b0.toNat + 2 * b1.toNat + 4 * b2.toNat + 8 * b3.toNat + 16 * b4.toNat)
    ((((m.load s0 false b0).load s1 false b1).load s2 false b2).load s3 false b3).load s4 false b4 =
      if s4 = 0 then { m with control := v }
      else if s4 = 1 then { m with chrBank0 := v }
      else if s4 = 2 then { m with chrBank1 := v }
      else { m with prgBank := BitVec.ofNat 4 v.toNat }

/-- `M1.CPUR` and `M1.PPUR` return the byte at the offset of the program and graphics modes (R284, R285). -/
def Obligations.SerialMapperReadsFollowItsModes : Prop :=
  ∀ (s : State) (m : Mmc1), s.map = .m1 m →
    (∀ a : CpuAddr,
      let mode := m.control.toNat / 4 % 4
      let o :=
        (if mode ≤ 1 then m.prgBank.toNat / 2 * 0x8000 + a.toNat % 0x8000
         else if mode = 2 then (if a.toNat < 0xC000 then 0 else m.prgBank.toNat * 0x4000) + a.toNat % 0x4000
         else (if a.toNat < 0xC000 then m.prgBank.toNat else s.cart.prgChunks - 1) * 0x4000 + a.toNat % 0x4000)
        % (s.cart.prgChunks * 16384)
      exec (.m1Cpur a) s = .next { s with answer := .read .prg o (s.byteAt .prg o) }) ∧
    (∀ a : PpuAddr,
      let o :=
        (if m.control.toNat / 16 = 0 then m.chrBank0.toNat / 2 * 0x2000 + a.toNat % 0x2000
         else (if a.toNat < 0x1000 then m.chrBank0.toNat else m.chrBank1.toNat) * 0x1000 + a.toNat % 0x1000)
        % chrSize s.cart
      exec (.m1Ppur a) s = .next { s with answer := .read .chr o (s.byteAt .chr o) })

/-! ### Mapper 4 -/

/-- The eight register writes of mapper 4: each changes its own fields and returns `Handled` (R296, R297, R300, R301,
R303, R304, R305, R306). Choices and inferences it rests on: the layouts are the spec's D24, D26, D28 and D29 or from
general knowledge. -/
def Obligations.ScanlineMapperRegisterWrites : Prop :=
  ∀ (s : State) (m : Mmc3), s.map = .m4 m →
    let done : Mmc3 → Result := fun n => .next { s with answer := .handled, map := .m4 n }
    (∀ (chrMode prgMode : Bool) (target : BitVec 3),
      exec (.m4Banksel chrMode prgMode target) s =
        done { m with target := target, prgMode := prgMode, chrMode := chrMode }) ∧
    (∀ d : Byte, ∃ n, exec (.m4Bankdata d) s = done { m with R := n } ∧
      ∀ k (hk : k < 8), n[k] = if k = m.target.toNat then d else m.R[k]) ∧
    (∀ mirror : Bool, exec (.m4Mirror mirror) s = done { m with mirror := mirror }) ∧
    exec .m4Ramprot s = done m ∧
    (∀ d : Byte, exec (.m4Irqlatch d) s = done { m with irqReloadValue := d }) ∧
    exec .m4Irqreload s = done { m with reloadPending := true } ∧
    exec .m4Irqdis s = done { m with irqEnabled := false, irqPending := false } ∧
    exec .m4Irqen s = done { m with irqEnabled := true }

/-- `M4.CPUR` and `M4.PPUR` return the byte at the offset of the two layouts, the last bank always at the top (R298,
R299). Choices and inferences it rests on: the layouts are the spec's D28. -/
def Obligations.ScanlineMapperReadsFollowItsLayouts : Prop :=
  ∀ (s : State) (m : Mmc3), s.map = .m4 m →
    (∀ a : CpuAddr,
      let n8 := 2 * s.cart.prgChunks
      let slot := a.toNat / 0x2000 % 4
      let bank :=
        if slot = 3 then n8 - 1
        else if slot = 1 then m.R[7].toNat
        else if slot = 0 then (if m.prgMode then n8 - 2 else m.R[6].toNat)
        else (if m.prgMode then m.R[6].toNat else n8 - 2)
      let o := (bank * 0x2000 + a.toNat % 0x2000) % (s.cart.prgChunks * 16384)
      exec (.m4Cpur a) s = .next { s with answer := .read .prg o (s.byteAt .prg o) }) ∧
    (∀ a : PpuAddr, a.toNat < 0x2000 →
      let a' := if m.chrMode then (a.toNat + 0x1000) % 0x2000 else a.toNat
      let k :=
        if a' < 0x800 then m.R[0].toNat / 2 * 2 + a' / 0x400 % 2
        else if a' < 0x1000 then m.R[1].toNat / 2 * 2 + a' / 0x400 % 2
        else if a' < 0x1400 then m.R[2].toNat
        else if a' < 0x1800 then m.R[3].toNat
        else if a' < 0x1C00 then m.R[4].toNat
        else m.R[5].toNat
      let o := (k * 0x400 + a.toNat % 0x400) % chrSize s.cart
      exec (.m4Ppur a) s = .next { s with answer := .read .chr o (s.byteAt .chr o) })

/-- `SCANLINE` and `ACKMAP` on mapper 4 (R307, R308); on every other variant they change nothing (R248, R288). The two
interrupt request outputs: `MapIrq` is `irqPending` on mapper 4 and false on every other variant (R326), `ApuIrq` is the
frame interrupt flag (R321). Choices and inferences it rests on: reload past zero and the enable on a zero reload are
the spec's D29. -/
def Obligations.ScanlineAndAcknowledgeEvents : Prop :=
  (∀ (s : State) (m : Mmc3), s.map = .m4 m →
    exec .scanline s = .next { s with
      answer := .nothing
      map := .m4 (
        if m.reloadPending then
          { m with
            irqCounter := m.irqReloadValue
            reloadPending := false
            irqPending := m.irqPending ||
              (decide (m.irqReloadValue = 0) && (m.irqEnabled || !s.params.m4ZeroReloadNeedsEnable)) }
        else if m.irqCounter = 0 then
          { m with irqCounter := m.irqReloadValue, irqPending := m.irqPending || m.irqEnabled }
        else { m with irqCounter := m.irqCounter - 1 }) } ∧
    exec .ackmap s = .next { s with answer := .nothing, map := .m4 { m with irqPending := false } } ∧
    s.mapIrq = m.irqPending) ∧
  (∀ s : State, s.mapper ≠ .m4 →
    exec .scanlineInert s = .next { s with answer := .nothing } ∧
    exec .ackmapInert s = .next { s with answer := .nothing } ∧
    s.mapIrq = false) ∧
  (∀ s : State, s.apuIrq = s.apu.fs.interruptFlag)

/-- With reload value `N >= 1` and the interrupt enabled, after a trigger write the first scanline loads `N`, the next
`N` count down to 0, and scanline `N + 2` is the first to set `irqPending`; from there it comes every `N + 1` (R307).
Choices and inferences it rests on: the counter's reload when it passes zero is the spec's D29. -/
def Obligations.ScanlineInterruptComesAfterNPlusTwoThenEveryNPlusOne : Prop :=
  ∀ (ps : Params) (m : Mmc3), m.irqReloadValue ≠ 0 → m.irqEnabled = true →
    (m.reloadPending = true →
      (∀ k, k ≤ m.irqReloadValue.toNat →
        (Mmc3.countScanline ps)^[k + 1] m =
          { m with reloadPending := false, irqCounter := BitVec.ofNat 8 (m.irqReloadValue.toNat - k) }) ∧
      (Mmc3.countScanline ps)^[m.irqReloadValue.toNat + 2] m =
        { m with reloadPending := false, irqCounter := m.irqReloadValue, irqPending := true }) ∧
    (m.reloadPending = false → m.irqCounter = m.irqReloadValue →
      (∀ k, k ≤ m.irqReloadValue.toNat →
        (Mmc3.countScanline ps)^[k] m =
          { m with irqCounter := BitVec.ofNat 8 (m.irqReloadValue.toNat - k) }) ∧
      (Mmc3.countScanline ps)^[m.irqReloadValue.toNat + 1] m = { m with irqPending := true })

/-! ### Simple mappers -/

/-- The bank register writes of mappers 2, 3, 7, 66 and 140 (R252, R255, R258, R261, R264). Choices and inferences it
rests on: the field positions of mappers 7, 66 and 140 are the spec's D24 and D37. -/
def Obligations.SimpleMapperBankWrites : Prop :=
  ∀ s : State,
    let done : MapState → Result := fun n => .next { s with answer := .handled, map := n }
    (∀ prg : BitVec 4, s.mapper = .m2 → exec (.m2Bank prg) s = done (.m2 prg)) ∧
    (∀ chr : BitVec 2, s.mapper = .m3 → exec (.m3Bank chr) s = done (.m3 chr)) ∧
    (∀ (mirror : Bool) (prg : BitVec 3), s.mapper = .m7 →
      exec (.m7Bank mirror prg) s = done (.m7 { prgBank := prg, mirrorSel := mirror })) ∧
    (∀ prg chr : BitVec 2, s.mapper = .m66 →
      exec (.m66Bank prg chr) s = done (.m66 { prgBank := prg, chrBank := chr })) ∧
    (∀ prg chr : BitVec 2, s.mapper = .m140 →
      exec (.m140Bank prg chr) s = done (.m140 { prgBank := prg, chrBank := chr }))

/-- The program reads of mappers 0, 2, 3, 7, 66 and 140 (R250, R253, R256, R259, R262). -/
def Obligations.SimpleMapperProgramReads : Prop :=
  ∀ (s : State) (a : CpuAddr),
    let size := s.cart.prgChunks * 16384
    let reads : Nat → Result := fun o => .next { s with answer := .read .prg (o % size) (s.byteAt .prg (o % size)) }
    (s.map = .m0 → exec (.m0Cpur a) s = reads (a.toNat % 0x8000)) ∧
    (∀ bank, s.map = .m2 bank →
      exec (.m2Cpur a) s =
        reads ((if a.toNat < 0xC000 then bank.toNat else s.cart.prgChunks - 1) * 0x4000 + a.toNat % 0x4000)) ∧
    (∀ bank, s.map = .m3 bank → exec (.m3Cpur a) s = reads (a.toNat % 0x8000)) ∧
    (∀ m, s.map = .m7 m → exec (.m7Cpur a) s = reads (m.prgBank.toNat * 0x8000 + a.toNat % 0x8000)) ∧
    (∀ m, s.map = .m66 m ∨ s.map = .m140 m →
      exec (.m66Cpur a) s = reads (m.prgBank.toNat * 0x8000 + a.toNat % 0x8000))

/-- The pattern-table reads of mappers 0, 2, 3, 7, 66 and 140 (R251, R254, R257, R260, R263). -/
def Obligations.SimpleMapperPatternReads : Prop :=
  ∀ (s : State) (a : PpuAddr), a.toNat < 0x2000 →
    let reads : Nat → Result := fun o =>
      .next { s with answer := .read .chr (o % chrSize s.cart) (s.byteAt .chr (o % chrSize s.cart)) }
    (s.map = .m0 → exec (.m0Ppur a) s = reads a.toNat) ∧
    (∀ bank, s.map = .m2 bank → exec (.m2Ppur a) s = reads a.toNat) ∧
    (∀ bank, s.map = .m3 bank → exec (.m3Ppur a) s = reads (bank.toNat * 0x2000 + a.toNat)) ∧
    (∀ m, s.map = .m7 m → exec (.m7Ppur a) s = reads a.toNat) ∧
    (∀ m, s.map = .m66 m ∨ s.map = .m140 m →
      exec (.m66Ppur a) s = reads (m.chrBank.toNat * 0x2000 + a.toNat))

/-! ### Storage and the bus -/

/-- Save memory on mappers 1 and 4: a write stores the byte at the offset and every other byte reads as before; a read
returns the byte there and changes nothing (R287, R302). Choices and inferences it rests on: the range, the size and the
variants are the spec's D26. -/
def Obligations.SaveMemoryReadsBackWhatWasWritten : Prop :=
  ∀ (s : State) (offset : BitVec 13) (d : Byte) (r w : Instr),
    (s.mapper = .m1 ∧ r = .m1Sramr offset ∧ w = .m1Sramw offset d) ∨
    (s.mapper = .m4 ∧ r = .m4Sramr offset ∧ w = .m4Sramw offset d) →
    (∃ t, exec w s = .next t ∧ t.answer = .stored .sram offset.toNat ∧
      t = { s with answer := t.answer, sram := t.sram } ∧
      t.byteAt .sram offset.toNat = d ∧
      (∀ o, o ≠ offset.toNat → t.byteAt .sram o = s.byteAt .sram o) ∧
      exec r t = .next { t with answer := .read .sram offset.toNat d }) ∧
    exec r s = .next { s with answer := .read .sram offset.toNat (s.byteAt .sram offset.toNat) }

/-- `MAP.PPUW`: with graphics RAM the byte is stored at the offset a read of the same address gives and every other byte
reads as before; with graphics ROM the answer is `NotMine` and nothing changes. `NOP.NOTMINE` answers `NotMine` and
changes nothing (R247, R90). Choices and inferences it rests on: graphics RAM when CHR_CHUNKS = 0 is the spec's D25,
NotMine its D19. -/
def Obligations.GraphicsWritesReachOnlyRam : Prop :=
  ∀ (s : State) (a : PpuAddr) (d : Byte),
    (s.cart.chrChunks = 0 → ∃ t, exec (.mapPpuw a d) s = .next t ∧
      t.answer = .stored .chr (patternOffset s a) ∧
      t = { s with answer := t.answer, chr := t.chr } ∧
      t.byteAt .chr (patternOffset s a) = d ∧
      (∀ o, o ≠ patternOffset s a → t.byteAt .chr o = s.byteAt .chr o)) ∧
    (s.cart.chrChunks ≠ 0 → exec (.mapPpuw a d) s = .next { s with answer := .notMine }) ∧
    (∀ (kind : BusKind) (addr : BitVec 16) (data : Byte),
      exec (.nopNotmine kind addr data) s = .next { s with answer := .notMine })

/-- Every translated offset is inside its storage, whatever the bank registers hold (R52, R243). Choices and inferences
it rests on: the reduction modulo the size is the spec's D23. -/
def Obligations.TranslatedOffsetsAreInsideTheStorage : Prop :=
  ∀ s : State, 1 ≤ s.cart.prgChunks →
    (∀ a : CpuAddr, programOffset s a < s.cart.prgChunks * 16384) ∧
    (∀ a : PpuAddr, patternOffset s a < (if s.cart.chrChunks = 0 then 8192 else s.cart.chrChunks * 8192)) ∧
    (∀ o : BitVec 13, sramOffset o < 8192)

/-- A bus event completes as the mapper's translation of its address says, on every variant: reads return the byte at
the translated offset, writes store there, are handled, or are not the block's (R242, R245). Choices and inferences it
rests on: NotMine is the spec's D22; a write answer, Handled or Stored, is the model's record, log 4. -/
def Obligations.BusEventsCompleteAsTheTranslationSays : Prop :=
  ∀ s : State,
    (∀ a : CpuAddr, a ≠ 0x4015#16 →
      takeEvent (cpurWord a) s = .next { s with answer := answerOfRead s (mapCpuRead s a) }) ∧
    (∀ a : PpuAddr, takeEvent (ppurWord a) s = .next { s with answer := answerOfRead s (mapPpuRead s a) }) ∧
    (∀ (a : CpuAddr) (d : Byte), apuWriteAddr a = false →
      ∃ t, takeEvent (cpuwWord a d) s = .next t ∧ t.answer = answerOfWrite (mapCpuWrite s a) ∧ t.apu = s.apu ∧
        t.chr = s.chr ∧ t.prg = s.prg ∧
        (∀ o, mapCpuWrite s a = .sram o → t.sram = s.sram.write o d ∧ t.map = s.map) ∧
        (mapCpuWrite s a = .handled → t.sram = s.sram) ∧
        (mapCpuWrite s a = .notMine → t = { s with answer := .notMine })) ∧
    (∀ (a : PpuAddr) (d : Byte),
      takeEvent (ppuwWord a d) s =
        match mapPpuWrite s a with
        | .chr o => .next { s with answer := .stored .chr o, chr := s.chr.write o d }
        | _ => .next { s with answer := .notMine })

/-! ### Instantiation and the host -/

/-- A block exists exactly for the eight mapper numbers and at least one program chunk (R336). It is the variant of its
number (R244), with the reset state of its variant, which `RESET` leaves as it is (R350), and nothing pending; its
program, graphics and, on mappers 1 and 4, save storage read the supplied bytes (R6, R39); with parameters R6 admits it
meets the invariant. Choices and inferences it rests on: the refusal of an empty program storage is the spec's D36, the
reset state its D30, the sizes of graphics RAM and save memory its D25 and D26; an image of another length is read as
logs 24 and 28 say. -/
def Obligations.InstantiationRefusesExactlyUnsupportedCartridges : Prop :=
  ∀ (n : Nat) (ps : Params) (c : Cartridge) (prg chr sram : List Byte),
    (instantiate n ps c prg chr sram = .error .unsupportedMapper ↔
      n ∉ [0, 1, 2, 3, 4, 7, 66, 140] ∨ c.prgChunks = 0) ∧
    (∀ s, instantiate n ps c prg chr sram = .ok s →
      (n, s.mapper) ∈
        [(0, Mapper.m0), (1, .m1), (2, .m2), (3, .m3), (4, .m4), (7, .m7), (66, .m66), (140, .m140)] ∧
      s.params = ps ∧ s.cart = c ∧ s.apu = apuReset ps ∧ s.map = mapReset s.mapper ∧ s.events = [] ∧
      exec .reset s = .next s ∧
      (∀ (o : Nat) (b : Byte), prg[o]? = some b → o < c.prgChunks * 16384 → s.byteAt .prg o = b) ∧
      (∀ (o : Nat) (b : Byte), chr[o]? = some b → o < (if c.chrChunks = 0 then 8192 else c.chrChunks * 8192) →
        s.byteAt .chr o = b) ∧
      (s.mapper ∈ [Mapper.m1, .m4] →
        ∀ (o : Nat) (b : Byte), sram[o]? = some b → o < 8192 → s.byteAt .sram o = b) ∧
      (paramsOk ps = true → s.Inv))

/-- `GetSRam` after `SetSRam` gives the image back; the access changes nothing but the save memory and keeps the
invariant (R240, R39). Choices and inferences it rests on: the host access is R39; the save memory is the spec's D26. -/
def Obligations.SaveMemoryImageRoundTrips : Prop :=
  ∀ (s : State) (image : List Byte), image.length = 8192 → s.mapper.hasSram = true →
    getSRam (setSRam image s) = some image ∧
    setSRam image s = { s with sram := (setSRam image s).sram } ∧
    (s.Inv → (setSRam image s).Inv)
end

