-- ==== Sys2Proof/Laws/State.lean ====
section
/-! SUPPORT. One lemma per field per update of State, each by rfl, so that no proof unfolds a record update. -/

namespace Sys2Proof.Machine

variable (s : State)

@[simp] theorem State.withApu_params (a : Apu) : (s.withApu a).params = s.params := rfl
@[simp] theorem State.withApu_cart (a : Apu) : (s.withApu a).cart = s.cart := rfl
@[simp] theorem State.withApu_apu (a : Apu) : (s.withApu a).apu = a := rfl
@[simp] theorem State.withApu_map (a : Apu) : (s.withApu a).map = s.map := rfl
@[simp] theorem State.withApu_prg (a : Apu) : (s.withApu a).prg = s.prg := rfl
@[simp] theorem State.withApu_chr (a : Apu) : (s.withApu a).chr = s.chr := rfl
@[simp] theorem State.withApu_sram (a : Apu) : (s.withApu a).sram = s.sram := rfl
@[simp] theorem State.withApu_events (a : Apu) : (s.withApu a).events = s.events := rfl
@[simp] theorem State.withApu_answer (a : Apu) : (s.withApu a).answer = s.answer := rfl
@[simp] theorem State.withApu_mapper (a : Apu) : (s.withApu a).mapper = s.mapper := rfl
@[simp] theorem State.withApu_supported (a : Apu) : (s.withApu a).supported = s.supported := rfl
@[simp] theorem State.withApu_byteAt (a : Apu) : (s.withApu a).byteAt = s.byteAt := rfl

@[simp] theorem State.withMap_params (m : MapState) : (s.withMap m).params = s.params := rfl
@[simp] theorem State.withMap_cart (m : MapState) : (s.withMap m).cart = s.cart := rfl
@[simp] theorem State.withMap_apu (m : MapState) : (s.withMap m).apu = s.apu := rfl
@[simp] theorem State.withMap_map (m : MapState) : (s.withMap m).map = m := rfl
@[simp] theorem State.withMap_prg (m : MapState) : (s.withMap m).prg = s.prg := rfl
@[simp] theorem State.withMap_chr (m : MapState) : (s.withMap m).chr = s.chr := rfl
@[simp] theorem State.withMap_sram (m : MapState) : (s.withMap m).sram = s.sram := rfl
@[simp] theorem State.withMap_events (m : MapState) : (s.withMap m).events = s.events := rfl
@[simp] theorem State.withMap_answer (m : MapState) : (s.withMap m).answer = s.answer := rfl
@[simp] theorem State.withMap_supported (m : MapState) : (s.withMap m).supported = s.supported := rfl
@[simp] theorem State.withMap_byteAt (m : MapState) : (s.withMap m).byteAt = s.byteAt := rfl

@[simp] theorem State.withChr_params (m : Memory) : (s.withChr m).params = s.params := rfl
@[simp] theorem State.withChr_cart (m : Memory) : (s.withChr m).cart = s.cart := rfl
@[simp] theorem State.withChr_apu (m : Memory) : (s.withChr m).apu = s.apu := rfl
@[simp] theorem State.withChr_map (m : Memory) : (s.withChr m).map = s.map := rfl
@[simp] theorem State.withChr_prg (m : Memory) : (s.withChr m).prg = s.prg := rfl
@[simp] theorem State.withChr_chr (m : Memory) : (s.withChr m).chr = m := rfl
@[simp] theorem State.withChr_sram (m : Memory) : (s.withChr m).sram = s.sram := rfl
@[simp] theorem State.withChr_events (m : Memory) : (s.withChr m).events = s.events := rfl
@[simp] theorem State.withChr_answer (m : Memory) : (s.withChr m).answer = s.answer := rfl
@[simp] theorem State.withChr_mapper (m : Memory) : (s.withChr m).mapper = s.mapper := rfl
@[simp] theorem State.withChr_supported (m : Memory) : (s.withChr m).supported = s.supported := rfl

@[simp] theorem State.withSram_params (m : Memory) : (s.withSram m).params = s.params := rfl
@[simp] theorem State.withSram_cart (m : Memory) : (s.withSram m).cart = s.cart := rfl
@[simp] theorem State.withSram_apu (m : Memory) : (s.withSram m).apu = s.apu := rfl
@[simp] theorem State.withSram_map (m : Memory) : (s.withSram m).map = s.map := rfl
@[simp] theorem State.withSram_prg (m : Memory) : (s.withSram m).prg = s.prg := rfl
@[simp] theorem State.withSram_chr (m : Memory) : (s.withSram m).chr = s.chr := rfl
@[simp] theorem State.withSram_sram (m : Memory) : (s.withSram m).sram = m := rfl
@[simp] theorem State.withSram_events (m : Memory) : (s.withSram m).events = s.events := rfl
@[simp] theorem State.withSram_answer (m : Memory) : (s.withSram m).answer = s.answer := rfl
@[simp] theorem State.withSram_mapper (m : Memory) : (s.withSram m).mapper = s.mapper := rfl
@[simp] theorem State.withSram_supported (m : Memory) : (s.withSram m).supported = s.supported := rfl

@[simp] theorem State.withEvents_params (e : List EventWord) : (s.withEvents e).params = s.params := rfl
@[simp] theorem State.withEvents_cart (e : List EventWord) : (s.withEvents e).cart = s.cart := rfl
@[simp] theorem State.withEvents_apu (e : List EventWord) : (s.withEvents e).apu = s.apu := rfl
@[simp] theorem State.withEvents_map (e : List EventWord) : (s.withEvents e).map = s.map := rfl
@[simp] theorem State.withEvents_prg (e : List EventWord) : (s.withEvents e).prg = s.prg := rfl
@[simp] theorem State.withEvents_chr (e : List EventWord) : (s.withEvents e).chr = s.chr := rfl
@[simp] theorem State.withEvents_sram (e : List EventWord) : (s.withEvents e).sram = s.sram := rfl
@[simp] theorem State.withEvents_events (e : List EventWord) : (s.withEvents e).events = e := rfl
@[simp] theorem State.withEvents_answer (e : List EventWord) : (s.withEvents e).answer = s.answer := rfl
@[simp] theorem State.withEvents_mapper (e : List EventWord) : (s.withEvents e).mapper = s.mapper := rfl
@[simp] theorem State.withEvents_supported (e : List EventWord) : (s.withEvents e).supported = s.supported := rfl
@[simp] theorem State.withEvents_byteAt (e : List EventWord) : (s.withEvents e).byteAt = s.byteAt := rfl

@[simp] theorem State.withAnswer_params (a : Answer) : (s.withAnswer a).params = s.params := rfl
@[simp] theorem State.withAnswer_cart (a : Answer) : (s.withAnswer a).cart = s.cart := rfl
@[simp] theorem State.withAnswer_apu (a : Answer) : (s.withAnswer a).apu = s.apu := rfl
@[simp] theorem State.withAnswer_map (a : Answer) : (s.withAnswer a).map = s.map := rfl
@[simp] theorem State.withAnswer_prg (a : Answer) : (s.withAnswer a).prg = s.prg := rfl
@[simp] theorem State.withAnswer_chr (a : Answer) : (s.withAnswer a).chr = s.chr := rfl
@[simp] theorem State.withAnswer_sram (a : Answer) : (s.withAnswer a).sram = s.sram := rfl
@[simp] theorem State.withAnswer_events (a : Answer) : (s.withAnswer a).events = s.events := rfl
@[simp] theorem State.withAnswer_answer (a : Answer) : (s.withAnswer a).answer = a := rfl
@[simp] theorem State.withAnswer_mapper (a : Answer) : (s.withAnswer a).mapper = s.mapper := rfl
@[simp] theorem State.withAnswer_supported (a : Answer) : (s.withAnswer a).supported = s.supported := rfl
@[simp] theorem State.withAnswer_byteAt (a : Answer) : (s.withAnswer a).byteAt = s.byteAt := rfl

/-! ### The pulse channels -/

variable (a : Apu) (id : PulseId) (p : Pulse)

@[simp] theorem Apu.withPulse_pulse : (a.withPulse id p).pulse id = p := by cases id <;> rfl
@[simp] theorem Apu.withPulse_masterClockPhase : (a.withPulse id p).masterClockPhase = a.masterClockPhase := by
  cases id <;> rfl
@[simp] theorem Apu.withPulse_evenCycleParity : (a.withPulse id p).evenCycleParity = a.evenCycleParity := by
  cases id <;> rfl
@[simp] theorem Apu.withPulse_enabledChannelsMask :
    (a.withPulse id p).enabledChannelsMask = a.enabledChannelsMask := by cases id <;> rfl
@[simp] theorem Apu.withPulse_fs : (a.withPulse id p).fs = a.fs := by cases id <;> rfl
@[simp] theorem Apu.withPulse_triangle : (a.withPulse id p).triangle = a.triangle := by cases id <;> rfl
@[simp] theorem Apu.withPulse_noise : (a.withPulse id p).noise = a.noise := by cases id <;> rfl
@[simp] theorem Apu.withPulse_one_pulse1 : (a.withPulse .one p).pulse1 = p := rfl
@[simp] theorem Apu.withPulse_one_pulse2 : (a.withPulse .one p).pulse2 = a.pulse2 := rfl
@[simp] theorem Apu.withPulse_two_pulse1 : (a.withPulse .two p).pulse1 = a.pulse1 := rfl
@[simp] theorem Apu.withPulse_two_pulse2 : (a.withPulse .two p).pulse2 = p := rfl

end Sys2Proof.Machine
end

