-- ==== Sys2Proof/Laws/Memory.lean ====
section
/-! SUPPORT. The storage laws: read after write, the canonical form and the bound are kept by every operation, and two
contents in canonical form that read alike are equal. -/

namespace Sys2Proof.Machine

theorem Memory.read?_write_same (m : Memory) (a : Nat) (v : Byte) : (m.write a v).read? a = some v := by
  induction m with
  | nil => simp [Memory.write, Memory.read?]
  | cons c rest ih =>
    obtain ⟨k, u⟩ := c
    simp only [Memory.write]
    split
    · simp [Memory.read?]
    · split
      · simp [Memory.read?]
      · simp [Memory.read?, *]

theorem Memory.read?_write_other (m : Memory) {a b : Nat} (v : Byte) (h : b ≠ a) :
    (m.write a v).read? b = m.read? b := by
  induction m with
  | nil => simp [Memory.write, Memory.read?, h]
  | cons c rest ih =>
    obtain ⟨k, u⟩ := c
    simp only [Memory.write]
    split
    · simp [Memory.read?, h]
    · split
      · subst a; simp [Memory.read?, h]
      · simp [Memory.read?, ih]

theorem Memory.risingFrom_mono {low low' : Nat} {m : Memory} (h : low' ≤ low) (hm : Memory.risingFrom low m = true) :
    Memory.risingFrom low' m = true := by
  cases m with
  | nil => rfl
  | cons c rest =>
    simp only [Memory.risingFrom, Bool.and_eq_true, decide_eq_true_eq] at hm ⊢
    exact ⟨by omega, hm.2⟩

theorem Memory.risingFrom_write {low : Nat} (m : Memory) (a : Nat) (v : Byte) (ha : low ≤ a)
    (hm : Memory.risingFrom low m = true) : Memory.risingFrom low (m.write a v) = true := by
  induction m generalizing low with
  | nil => simp [Memory.write, Memory.risingFrom, ha]
  | cons c rest ih =>
    obtain ⟨k, u⟩ := c
    simp only [Memory.risingFrom, Bool.and_eq_true, decide_eq_true_eq] at hm
    simp only [Memory.write]
    split
    · simp only [Memory.risingFrom, Bool.and_eq_true, decide_eq_true_eq]
      exact ⟨ha, by omega, hm.2⟩
    · split
      · subst a; simp [Memory.risingFrom, hm.1, hm.2]
      · simp only [Memory.risingFrom, Bool.and_eq_true, decide_eq_true_eq]
        exact ⟨hm.1, ih (by omega) hm.2⟩

/-- A write keeps the canonical form. -/
theorem Memory.wf_write (m : Memory) (a : Nat) (v : Byte) (hm : m.wf = true) : (m.write a v).wf = true :=
  Memory.risingFrom_write m a v (Nat.zero_le a) hm

/-- A write inside the size keeps the bound. -/
theorem Memory.within_write {size : Nat} (m : Memory) (a : Nat) (v : Byte) (ha : a < size)
    (hm : m.within size = true) : (m.write a v).within size = true := by
  induction m with
  | nil => simp [Memory.write, Memory.within, ha]
  | cons c rest ih =>
    obtain ⟨k, u⟩ := c
    simp only [Memory.within, List.all_cons, Bool.and_eq_true, decide_eq_true_eq] at hm ih ⊢
    simp only [Memory.write]
    split
    · simpa [ha] using hm
    · split
      · simpa [ha] using hm.2
      · simpa [hm.1] using ih hm.2

theorem Memory.risingFrom_ofBytes (start : Nat) (l : List Byte) :
    Memory.risingFrom start (Memory.ofBytes start l) = true := by
  induction l generalizing start with
  | nil => rfl
  | cons b rest ih => simp [Memory.ofBytes, Memory.risingFrom, ih]

/-- An image is in canonical form. -/
theorem Memory.wf_ofBytes (start : Nat) (l : List Byte) : (Memory.ofBytes start l).wf = true :=
  Memory.risingFrom_mono (Nat.zero_le start) (Memory.risingFrom_ofBytes start l)

/-- An image that fits is inside the size. -/
theorem Memory.within_ofBytes {size : Nat} (start : Nat) (l : List Byte) (h : start + l.length ≤ size) :
    (Memory.ofBytes start l).within size = true := by
  induction l generalizing start with
  | nil => rfl
  | cons b rest ih =>
    have hl : start + (rest.length + 1) ≤ size := by simpa using h
    have := ih (start + 1) (by omega)
    simp only [Memory.within, Memory.ofBytes, List.all_cons, Bool.and_eq_true, decide_eq_true_eq] at this ⊢
    exact ⟨by omega, this⟩

/-- An image reads as its bytes. -/
theorem Memory.read?_ofBytes (start : Nat) (l : List Byte) (i : Nat) (h : i < l.length) :
    (Memory.ofBytes start l).read? (start + i) = some l[i] := by
  induction l generalizing start i with
  | nil => simp at h
  | cons b rest ih =>
    cases i with
    | zero => simp [Memory.ofBytes, Memory.read?]
    | succ j =>
      have := ih (start + 1) j (by simpa using h)
      simp only [Memory.ofBytes, Memory.read?]
      rw [if_neg (by omega), show start + (j + 1) = start + 1 + j by omega, this]
      simp

/-- Nothing is listed below the first offset. -/
theorem Memory.read?_below {low : Nat} {m : Memory} (hm : Memory.risingFrom low m = true) {a : Nat} (h : a < low) :
    m.read? a = none := by
  induction m generalizing low with
  | nil => rfl
  | cons c rest ih =>
    simp only [Memory.risingFrom, Bool.and_eq_true, decide_eq_true_eq] at hm
    simp only [Memory.read?]
    rw [if_neg (by omega)]
    exact ih hm.2 (by omega)

/-- Contents in canonical form that read alike are the same data. -/
theorem Memory.ext_of_risingFrom {low : Nat} {m n : Memory} (hm : Memory.risingFrom low m = true)
    (hn : Memory.risingFrom low n = true) (h : ∀ a, m.read? a = n.read? a) : m = n := by
  induction m generalizing low n with
  | nil =>
    cases n with
    | nil => rfl
    | cons d rest => simpa [Memory.read?] using h d.1
  | cons c rest ih =>
    cases n with
    | nil => simpa [Memory.read?] using h c.1
    | cons d rest' =>
      obtain ⟨k, u⟩ := c
      obtain ⟨j, v⟩ := d
      simp only [Memory.risingFrom, Bool.and_eq_true, decide_eq_true_eq] at hm hn
      have hkj : k = j := by
        rcases Nat.lt_trichotomy k j with hlt | heq | hlt
        · have := h k
          simp only [Memory.read?, ↓reduceIte, if_neg (Nat.ne_of_lt hlt),
            Memory.read?_below hn.2 (show k < j + 1 by omega)] at this
          cases this
        · exact heq
        · have := h j
          simp only [Memory.read?, ↓reduceIte, if_neg (Nat.ne_of_lt hlt),
            Memory.read?_below hm.2 (show j < k + 1 by omega)] at this
          cases this
      subst hkj
      have huv : u = v := by simpa [Memory.read?] using h k
      subst huv
      have : rest = rest' := by
        refine ih hm.2 hn.2 fun a => ?_
        by_cases hak : a = k
        · rw [Memory.read?_below hm.2 (by omega), Memory.read?_below hn.2 (by omega)]
        · simpa [Memory.read?, hak] using h a
      rw [this]

end Sys2Proof.Machine
end

