-- ==== Sys2Proof/Laws/Decode.lean ====
section
/-! SUPPORT. The fields of an event word and of every data byte, and what the decoder does with a word built by the
encoder's helpers. -/

namespace Sys2Proof

/-! ### Fields of an event word -/

/-- The bits of an event word, field by field (R70). -/
theorem getLsbD_eventWord (k : BitVec 4) (a : BitVec 16) (d : Byte) (i : Nat) :
    (eventWord k a d).getLsbD i =
      if i < 8 then d.getLsbD i else if i - 8 < 16 then a.getLsbD (i - 8) else k.getLsbD (i - 8 - 16) := by
  show ((k ++ a) ++ d : BitVec (4 + 16 + 8)).getLsbD i = _
  rw [BitVec.getLsbD_append, BitVec.getLsbD_append]

@[simp] theorem eventKind_eventWord (k : BitVec 4) (a : BitVec 16) (d : Byte) : eventKind (eventWord k a d) = k := by
  apply BitVec.eq_of_getLsbD_eq
  intro i hi
  rw [eventKind, BitVec.getLsbD_extractLsb', getLsbD_eventWord, if_neg (by omega), if_neg (by omega)]
  simp [hi, show 24 + i - 8 - 16 = i by omega]

@[simp] theorem eventAddr_eventWord (k : BitVec 4) (a : BitVec 16) (d : Byte) : eventAddr (eventWord k a d) = a := by
  apply BitVec.eq_of_getLsbD_eq
  intro i hi
  rw [eventAddr, BitVec.getLsbD_extractLsb', getLsbD_eventWord, if_neg (by omega), if_pos (by omega)]
  simp [hi]

@[simp] theorem eventData_eventWord (k : BitVec 4) (a : BitVec 16) (d : Byte) : eventData (eventWord k a d) = d := by
  apply BitVec.eq_of_getLsbD_eq
  intro i hi
  rw [eventData, BitVec.getLsbD_extractLsb', getLsbD_eventWord, if_pos (by omega)]
  simp [hi]

/-- An event word is its three fields. -/
theorem eventWord_fields (w : EventWord) : eventWord (eventKind w) (eventAddr w) (eventData w) = w := by
  apply BitVec.eq_of_getLsbD_eq
  intro i hi
  rw [getLsbD_eventWord]
  split
  · rename_i h; simp [eventData, h]
  · split
    · rename_i h; simp only [eventAddr, BitVec.getLsbD_extractLsb', h, decide_true, Bool.true_and]; congr 1; omega
    · simp only [eventKind, BitVec.getLsbD_extractLsb', show i - 8 - 16 < 4 by omega, decide_true, Bool.true_and]
      congr 1; omega

/-! ### The decoder on words of each kind -/

@[simp] theorem decode_cpuwWord (m : Mapper) (a : CpuAddr) (d : Byte) :
    decode m (cpuwWord a d) = .ok (decodeCpuw m a d) := by
  simp [decode, cpuwWord]

@[simp] theorem decode_cpurWord (m : Mapper) (a : CpuAddr) : decode m (cpurWord a) = .ok (decodeCpur m a 0#8) := by
  simp [decode, cpurWord]

theorem ppuAddress_high (a : PpuAddr) : (0#2 ++ a : BitVec 16).extractLsb' 14 2 = 0#2 := by
  apply BitVec.eq_of_getLsbD_eq
  intro i hi
  rw [BitVec.getLsbD_extractLsb', BitVec.getLsbD_append]
  simp

theorem ppuAddress_low (a : PpuAddr) : (0#2 ++ a : BitVec 16).extractLsb' 0 14 = a := by
  apply BitVec.eq_of_getLsbD_eq
  intro i hi
  rw [BitVec.getLsbD_extractLsb', BitVec.getLsbD_append]
  simp [hi]

theorem ppuAddress_bit13 (a : PpuAddr) : (0#2 ++ a : BitVec 16).getLsbD 13 = a.getLsbD 13 := by
  rw [BitVec.getLsbD_append]; rfl

@[simp] theorem decode_ppuwWord (m : Mapper) (a : PpuAddr) (d : Byte) :
    decode m (ppuwWord a d) = .ok (decodePpuw (0#2 ++ a) d) := by
  simp [decode, ppuwWord, ppuAddress_high]

@[simp] theorem decode_ppurWord (m : Mapper) (a : PpuAddr) :
    decode m (ppurWord a) = .ok (decodePpur m (0#2 ++ a) 0#8) := by
  simp [decode, ppurWord, ppuAddress_high]

@[simp] theorem decode_evtWord (m : Mapper) : decode m (evtWord 4#4) = .ok .mclk := by
  simp [decode, evtWord, decodeEvt]

/-! ### The address ranges as bit tests -/

theorem cartAddr_iff_bit (a : CpuAddr) : cartAddr a = a.getLsbD 15 := by
  have h : a.getLsbD 15 = a.msb := by rw [BitVec.msb_eq_getLsbD_last]
  rw [h, BitVec.msb_eq_decide, cartAddr]
  simp [BitVec.le_def]

theorem patternAddr_iff_bit (a : PpuAddr) : patternAddr a = !a.getLsbD 13 := by
  have h : a.getLsbD 13 = a.msb := by rw [BitVec.msb_eq_getLsbD_last]
  rw [h, BitVec.msb_eq_decide, patternAddr]
  rw [Bool.eq_iff_iff]
  simp [BitVec.lt_def]

theorem toNat_extractLsb'_high3 (a : CpuAddr) : (a.extractLsb' 13 3).toNat = a.toNat / 0x2000 := by
  have := a.isLt
  rw [BitVec.extractLsb'_toNat, Nat.shiftRight_eq_div_pow]
  omega

theorem saveAddr_iff_bits (a : CpuAddr) : saveAddr a = decide (a.extractLsb' 13 3 = 0b011#3) := by
  have h := a.isLt
  rw [saveAddr, Bool.eq_iff_iff]
  simp only [Bool.and_eq_true, decide_eq_true_eq, BitVec.le_def, BitVec.toNat_eq, toNat_extractLsb'_high3]
  constructor
  · rintro ⟨h1, h2⟩
    simp at h1 h2 ⊢
    omega
  · intro h1
    simp at h1 ⊢
    omega

/-! ### Fields of the encoder's data bytes -/

theorem dutyEnvelopeByte_fields (duty : BitVec 2) (h c : Bool) (l : BitVec 4) :
    (dutyEnvelopeByte duty h c l).extractLsb' 6 2 = duty ∧ (dutyEnvelopeByte duty h c l).getLsbD 5 = h ∧
    (dutyEnvelopeByte duty h c l).getLsbD 4 = c ∧ (dutyEnvelopeByte duty h c l).extractLsb' 0 4 = l := by
  revert duty h c l; decide

theorem sweepByte_fields (en : Bool) (p : BitVec 3) (n : Bool) (s : BitVec 3) :
    (sweepByte en p n s).getLsbD 7 = en ∧ (sweepByte en p n s).extractLsb' 4 3 = p ∧
    (sweepByte en p n s).getLsbD 3 = n ∧ (sweepByte en p n s).extractLsb' 0 3 = s := by
  revert en p n s; decide

theorem timerHighByte_fields (l : BitVec 5) (t : BitVec 3) :
    (timerHighByte l t).extractLsb' 3 5 = l ∧ (timerHighByte l t).extractLsb' 0 3 = t := by
  revert l t; decide

theorem bankPairByte_fields (p c : BitVec 2) :
    (bankPairByte p c).extractLsb' 4 2 = p ∧ (bankPairByte p c).extractLsb' 0 2 = c := by
  revert p c; decide

theorem saveAddrOf_fields (o : BitVec 13) :
    (saveAddrOf o).extractLsb' 0 13 = o ∧ (saveAddrOf o).extractLsb' 13 3 = 0b011#3 ∧
    (saveAddrOf o).getLsbD 15 = false := by
  refine ⟨?_, ?_, ?_⟩
  · apply BitVec.eq_of_getLsbD_eq
    intro i hi
    rw [BitVec.getLsbD_extractLsb', saveAddrOf, BitVec.getLsbD_append]
    simp [hi]
  · apply BitVec.eq_of_getLsbD_eq
    intro i hi
    rw [BitVec.getLsbD_extractLsb', saveAddrOf, BitVec.getLsbD_append]
    simp [hi]
  · rw [saveAddrOf, BitVec.getLsbD_append]
    simp

/-- The APU's write decoder claims only the APU's write addresses (R51, R72). -/
theorem decodeApuWrite_eq_none (a : CpuAddr) (d : Byte) (h : apuWriteAddr a = false) : decodeApuWrite a d = none := by
  have h' : ∀ k : CpuAddr, apuWriteAddr k = true → a ≠ k := fun k hk e => by rw [e, hk] at h; cases h
  unfold decodeApuWrite
  repeat' rw [if_neg (h' _ (by decide))]

end Sys2Proof
end

