-- ==== Sys2Proof/Laws/Ops.lean ====
section
/-! SUPPORT. What each shared operation can do, said once: inversion lemmas for the results, the value forms of the
operand and flag computations, the clocks of the units, and the frame of the sequencer's tick. Proofs cite these and do
not unfold the operations. -/

namespace Sys2Proof.Machine

/-! ### Results -/

@[simp] theorem finish_eq_next {a : Answer} {s t : State} : finish a s = .next t ↔ t = s.withAnswer a := by
  constructor
  · intro h; cases h; rfl
  · rintro rfl; rfl

/-- An operation of mapper 1 answers a next state exactly when mapper 1 is installed and its body does. -/
theorem onM1_eq_next {s t : State} {k : Mmc1 → Result} :
    s.onM1 k = .next t ↔ ∃ m, s.map = .m1 m ∧ k m = .next t := by
  unfold State.onM1
  cases s.map <;> simp

/-- An operation of mapper 4 answers a next state exactly when mapper 4 is installed and its body does. -/
theorem onM4_eq_next {s t : State} {k : Mmc3 → Result} :
    s.onM4 k = .next t ↔ ∃ m, s.map = .m4 m ∧ k m = .next t := by
  unfold State.onM4
  cases s.map <;> simp

theorem onMapper_eq_next {s t : State} {ms : List Mapper} {k : Result} :
    s.onMapper ms k = .next t ↔ s.mapper ∈ ms ∧ k = .next t := by
  unfold State.onMapper
  by_cases h : s.mapper ∈ ms <;> simp [h]

theorem onM1_of_map {s : State} {m : Mmc1} (h : s.map = .m1 m) (k : Mmc1 → Result) : s.onM1 k = k m := by
  simp [State.onM1, h]

theorem onM4_of_map {s : State} {m : Mmc3} (h : s.map = .m4 m) (k : Mmc3 → Result) : s.onM4 k = k m := by
  simp [State.onM4, h]

theorem onMapper_of_mem {s : State} {ms : List Mapper} (h : s.mapper ∈ ms) (k : Result) : s.onMapper ms k = k := by
  simp [State.onMapper, h]

/-- A row the installed variant does not have stops by name. -/
theorem onMapper_of_not_mem {s : State} {ms : List Mapper} (h : s.mapper ∉ ms) (k : Result) :
    s.onMapper ms k = .refused .absentOnThisMapper := by
  simp [State.onMapper, h]

theorem onM1_of_ne {s : State} (h : s.mapper ≠ .m1) (k : Mmc1 → Result) :
    s.onM1 k = .refused .absentOnThisMapper := by
  unfold State.onM1
  unfold State.mapper at h
  cases hm : s.map <;> simp_all

theorem onM4_of_ne {s : State} (h : s.mapper ≠ .m4) (k : Mmc3 → Result) :
    s.onM4 k = .refused .absentOnThisMapper := by
  unfold State.onM4
  unfold State.mapper at h
  cases hm : s.map <;> simp_all

@[simp] theorem readStorage_eq_next {sp : Space} {o : Nat} {s t : State} :
    readStorage sp o s = .next t ↔ t = s.withAnswer (.read sp o (s.byteAt sp o)) := finish_eq_next

@[simp] theorem writeSram_eq_next {o : Nat} {d : Byte} {s t : State} :
    writeSram o d s = .next t ↔ t = (s.withSram (s.sram.write o d)).withAnswer (.stored .sram o) := finish_eq_next

@[simp] theorem writeChr_eq_next {o : Nat} {d : Byte} {s t : State} :
    writeChr o d s = .next t ↔ t = (s.withChr (s.chr.write o d)).withAnswer (.stored .chr o) := finish_eq_next

@[simp] theorem updatePulse_eq_next {id : PulseId} {f : Pulse → Pulse} {s t : State} :
    updatePulse id f s = .next t ↔ t = (s.withApu (s.apu.withPulse id (f (s.apu.pulse id)))).withAnswer .nothing :=
  finish_eq_next

@[simp] theorem updateTriangle_eq_next {f : Triangle → Triangle} {s t : State} :
    updateTriangle f s = .next t ↔
      t = (s.withApu { s.apu with triangle := f s.apu.triangle }).withAnswer .nothing := finish_eq_next

@[simp] theorem updateNoise_eq_next {f : Noise → Noise} {s t : State} :
    updateNoise f s = .next t ↔ t = (s.withApu { s.apu with noise := f s.apu.noise }).withAnswer .nothing :=
  finish_eq_next

@[simp] theorem ignoredWrite_eq_next {s t : State} : ignoredWrite s = .next t ↔ t = s.withAnswer .nothing :=
  finish_eq_next

theorem updateM4_eq_next {f : Mmc3 → Mmc3} {s t : State} :
    updateM4 f s = .next t ↔ ∃ m, s.map = .m4 m ∧ t = (s.withMap (.m4 (f m))).withAnswer .handled := by
  simp [updateM4, onM4_eq_next]

theorem writeBank_eq_next {ms : List Mapper} {m : MapState} {s t : State} :
    writeBank ms m s = .next t ↔ s.mapper ∈ ms ∧ t = (s.withMap m).withAnswer .handled := by
  simp [writeBank, onMapper_eq_next]

theorem readProgram_eq_next {ms : List Mapper} {a : CpuAddr} {s t : State} :
    readProgram ms a s = .next t ↔
      s.mapper ∈ ms ∧ t = s.withAnswer (.read .prg (programOffset s a) (s.byteAt .prg (programOffset s a))) := by
  simp [readProgram, onMapper_eq_next]

theorem readPattern_eq_next {ms : List Mapper} {a : PpuAddr} {s t : State} :
    readPattern ms a s = .next t ↔
      s.mapper ∈ ms ∧ t = s.withAnswer (.read .chr (patternOffset s a) (s.byteAt .chr (patternOffset s a))) := by
  simp [readPattern, onMapper_eq_next]

/-! ### Bytes of a storage -/

@[simp] theorem State.withSram_byteAt_prg (s : State) (m : Memory) : (s.withSram m).byteAt .prg = s.byteAt .prg := rfl
@[simp] theorem State.withSram_byteAt_chr (s : State) (m : Memory) : (s.withSram m).byteAt .chr = s.byteAt .chr := rfl
@[simp] theorem State.withChr_byteAt_prg (s : State) (m : Memory) : (s.withChr m).byteAt .prg = s.byteAt .prg := rfl
@[simp] theorem State.withChr_byteAt_sram (s : State) (m : Memory) : (s.withChr m).byteAt .sram = s.byteAt .sram := rfl

/-- Save memory after a write. -/
theorem State.byteAt_sram_write (s : State) (a o : Nat) (d : Byte) :
    (s.withSram (s.sram.write a d)).byteAt .sram o = if o = a then d else s.byteAt .sram o := by
  show ((s.sram.write a d).read? o).getD _ = _
  split
  · rename_i h; subst h; rw [Memory.read?_write_same]; rfl
  · rename_i h; rw [Memory.read?_write_other _ _ h]; rfl

/-- Graphics memory after a write. -/
theorem State.byteAt_chr_write (s : State) (a o : Nat) (d : Byte) :
    (s.withChr (s.chr.write a d)).byteAt .chr o = if o = a then d else s.byteAt .chr o := by
  show ((s.chr.write a d).read? o).getD _ = _
  split
  · rename_i h; subst h; rw [Memory.read?_write_same]; rfl
  · rename_i h; rw [Memory.read?_write_other _ _ h]; rfl

/-! ### Operand forms and offsets -/

theorem toNat_append {n m : Nat} (x : BitVec n) (y : BitVec m) : (x ++ y).toNat = x.toNat * 2 ^ m + y.toNat := by
  rw [BitVec.toNat_append, ← Nat.shiftLeft_add_eq_or_of_lt y.isLt, Nat.shiftLeft_eq]

theorem periodWithLow_eq (p : BitVec 11) (l : Byte) :
    periodWithLow p l = BitVec.ofNat 11 (p.toNat / 256 * 256 + l.toNat) := by
  apply BitVec.eq_of_toNat_eq
  have := p.isLt
  have := l.isLt
  show (p.extractLsb' 8 3 ++ l : BitVec (3 + 8)).toNat = _
  rw [toNat_append, BitVec.extractLsb'_toNat, Nat.shiftRight_eq_div_pow, BitVec.toNat_ofNat]
  omega

theorem periodWithHigh_eq (p : BitVec 11) (h : BitVec 3) :
    periodWithHigh p h = BitVec.ofNat 11 (h.toNat * 256 + p.toNat % 256) := by
  apply BitVec.eq_of_toNat_eq
  have := p.isLt
  have := h.isLt
  show (h ++ p.extractLsb' 0 8 : BitVec (3 + 8)).toNat = _
  rw [toNat_append, BitVec.extractLsb'_toNat, Nat.shiftRight_eq_div_pow, BitVec.toNat_ofNat]
  omega

/-- A composed offset is inside its storage. -/
theorem bankOffset_lt {size : Nat} (h : 0 < size) (bank bankSize a : Nat) : bankOffset size bank bankSize a < size :=
  Nat.mod_lt _ h

theorem chrSize_pos (c : Cartridge) : 0 < chrSize c := by
  unfold chrSize chrIsRam chrChunkBytes
  split
  · decide
  · rename_i h; simp at h; omega

theorem prgSize_pos {c : Cartridge} (h : 1 ≤ c.prgChunks) : 0 < prgSize c := by
  unfold prgSize prgChunkBytes; omega

/-- A pattern-table offset is inside `CHR` whatever the bank registers hold. -/
theorem patternOffset_lt (s : State) (a : PpuAddr) : patternOffset s a < chrSize s.cart := by
  have h := fun bank bankSize => bankOffset_lt (chrSize_pos s.cart) bank bankSize a.toNat
  unfold patternOffset
  cases s.map <;>
    simp only [fixedChrOffset, m1ChrOffset, m3ChrOffset, m4ChrOffset, pairChrOffset, chrOffset] <;>
    (try split) <;> (try split) <;> exact h _ _

/-- A program offset is inside `PRG` whatever the bank registers hold. -/
theorem programOffset_lt (s : State) (a : CpuAddr) (hp : 1 ≤ s.cart.prgChunks) : programOffset s a < prgSize s.cart := by
  have h := fun bank bankSize => bankOffset_lt (prgSize_pos hp) bank bankSize a.toNat
  unfold programOffset
  cases s.map <;>
    simp only [fixedPrgOffset, m1PrgOffset, m2PrgOffset, m4PrgOffset, m7PrgOffset, pairPrgOffset, prgOffset] <;>
    (try split) <;> (try split) <;> (try split) <;> exact h _ _

/-! ### Dividers and timers -/

theorem Divider.clock_of_zero {w : Nat} {d : Divider w} (h : d.counter = 0) :
    d.clock = ({ d with counter := d.period }, true) := by simp [Divider.clock, h]

theorem Divider.clock_of_ne {w : Nat} {d : Divider w} (h : d.counter ≠ 0) :
    d.clock = ({ d with counter := d.counter - 1 }, false) := by
  unfold Divider.clock; rw [if_neg h]

@[simp] theorem Divider.clock_period {w : Nat} (d : Divider w) : d.clock.1.period = d.period := by
  unfold Divider.clock; split <;> rfl

@[simp] theorem timerClock_period {w : Nat} (mp : Nat) (d : Divider w) : (timerClock mp d).1.period = d.period := by
  unfold timerClock; split
  · rfl
  · exact Divider.clock_period d

/-! ### Units -/

theorem LengthCounter.load_eq (l : LengthCounter) (i : BitVec 5) :
    l.load i = { l with counter := if l.enabled then lenTable.get i.toFin else l.counter } := by
  cases l with | mk e h c => cases e <;> rfl

@[simp] theorem LengthCounter.clock_enabled (l : LengthCounter) : l.clock.enabled = l.enabled := by
  unfold LengthCounter.clock; split
  · rfl
  · split <;> rfl

@[simp] theorem LengthCounter.clock_halt (l : LengthCounter) : l.clock.halt = l.halt := by
  unfold LengthCounter.clock; split
  · rfl
  · split <;> rfl

@[simp] theorem Envelope.clock_period (e : Envelope) : e.clock.divider.period = e.divider.period := by
  unfold Envelope.clock; split
  · rfl
  · exact Divider.clock_period _

@[simp] theorem Envelope.clock_constantLevel (e : Envelope) : e.clock.constantLevel = e.constantLevel := by
  unfold Envelope.clock; split <;> rfl

@[simp] theorem Sweep.recompute_usesOnesComplement (adj : OnesAdj) (w : Sweep) (p : BitVec 11) :
    (w.recompute adj p).usesOnesComplement = w.usesOnesComplement := rfl

/-- What the sweep clock leaves alone: everything of the channel but the sweep unit and the timer's period. -/
theorem Pulse.clockSweep_frame (adj : OnesAdj) (p : Pulse) :
    (p.clockSweep adj).len = p.len ∧ (p.clockSweep adj).env = p.env ∧ (p.clockSweep adj).seq = p.seq ∧
      (p.clockSweep adj).timer.counter = p.timer.counter ∧
      (p.clockSweep adj).sweep.usesOnesComplement = p.sweep.usesOnesComplement := by
  unfold Pulse.clockSweep Pulse.clockSweepDivider Pulse.applySweep Pulse.recomputeSweep
  simp only []
  split <;> split <;> (try split) <;> exact ⟨rfl, rfl, rfl, rfl, rfl⟩

/-! ### The sequencer's tick -/

@[simp] theorem Apu.quarterFrame_fs (a : Apu) : a.quarterFrame.fs = a.fs := rfl
@[simp] theorem Apu.halfFrame_fs (adj : OnesAdj) (a : Apu) : (a.halfFrame adj).fs = a.fs := rfl

@[simp] theorem Apu.clockTimers_fs (ps : Params) (a : Apu) : (a.clockTimers ps).fs = a.fs := by
  unfold Apu.clockTimers; cases a.evenCycleParity <;> rfl

@[simp] theorem Apu.clockTimers_masterClockPhase (ps : Params) (a : Apu) :
    (a.clockTimers ps).masterClockPhase = a.masterClockPhase := by
  unfold Apu.clockTimers; cases a.evenCycleParity <;> rfl

@[simp] theorem Apu.atEntry_fs (adj : OnesAdj) (a : Apu) (e : ScheduleEntry) : (a.atEntry adj e).fs = a.fs.atEntry e := rfl

theorem Apu.atEntry_masterClockPhase (adj : OnesAdj) (a : Apu) (e : ScheduleEntry) :
    (a.atEntry adj e).masterClockPhase = a.masterClockPhase := by
  unfold Apu.atEntry; cases e.quarter <;> cases e.half <;> rfl

/-- The tick: either no entry of the schedule has the new count, or it acts on the first that does. -/
theorem Apu.halfTick_cases (ps : Params) (a : Apu) :
    (((scheduleOf ps a.fs.stepCount).find? (fun e => e.count == a.fs.cpuCycleCounter + 1) = none) ∧
      a.halfTick ps = { a with fs := { a.fs with cpuCycleCounter := a.fs.cpuCycleCounter + 1 } }) ∨
    (∃ e ∈ scheduleOf ps a.fs.stepCount, e.count = a.fs.cpuCycleCounter + 1 ∧
      a.halfTick ps =
        Apu.atEntry ps.sweepOnesAdj { a with fs := { a.fs with cpuCycleCounter := a.fs.cpuCycleCounter + 1 } } e) := by
  unfold Apu.halfTick
  cases h : (scheduleOf ps a.fs.stepCount).find? (fun e => e.count == a.fs.cpuCycleCounter + 1) with
  | none => exact .inl ⟨rfl, rfl⟩
  | some e => exact .inr ⟨e, List.mem_of_find?_eq_some h, by simpa using List.find?_some h, rfl⟩

theorem Apu.halfTick_masterClockPhase (ps : Params) (a : Apu) : (a.halfTick ps).masterClockPhase = a.masterClockPhase := by
  rcases a.halfTick_cases ps with ⟨-, h⟩ | ⟨e, -, -, h⟩
  · rw [h]
  · rw [h, Apu.atEntry_masterClockPhase]

theorem Apu.cpuCycle_masterClockPhase (ps : Params) (a : Apu) : (a.cpuCycle ps).masterClockPhase = a.masterClockPhase := by
  unfold Apu.cpuCycle
  rw [Apu.clockTimers_masterClockPhase, Apu.halfTick_masterClockPhase, Apu.halfTick_masterClockPhase]

end Sys2Proof.Machine
end

