-- ==== Sys2Proof/Laws/Units.lean ====
section
/-! SUPPORT. The units keep their part of the invariant: length counters, envelopes, the noise register, the schedule,
and with them the two pulses, the sequencer's tick and the timers. -/

namespace Sys2Proof.Machine

/-! ### One less -/

/-- A counter that is not zero, less one. -/
theorem toNat_sub_one {w : Nat} (x : BitVec w) (h : x ≠ 0) : (x - 1).toNat = x.toNat - 1 := by
  have h1 : x.toNat ≠ 0 := fun hh => h (BitVec.eq_of_toNat_eq (by simpa using hh))
  rcases w with _ | w
  · exact absurd (BitVec.eq_nil x |>.trans (BitVec.eq_nil 0).symm) h
  have := x.isLt
  have h2 : (1 : BitVec (w + 1)).toNat = 1 := by simp
  rw [BitVec.toNat_sub, h2, show 2 ^ (w + 1) - 1 + x.toNat = (x.toNat - 1) + 2 ^ (w + 1) by omega, Nat.add_mod_right,
    Nat.mod_eq_of_lt (by omega)]

theorem sub_one_eq {w : Nat} (x : BitVec w) (h : x ≠ 0) : x - 1 = BitVec.ofNat w (x.toNat - 1) := by
  apply BitVec.eq_of_toNat_eq
  rw [toNat_sub_one x h, BitVec.toNat_ofNat, Nat.mod_eq_of_lt]
  have := x.isLt
  omega

/-! ### Length counter and envelope -/

theorem LengthCounter.clock_ok {l : LengthCounter} (h : l.ok) : l.clock.ok := by
  unfold LengthCounter.clock
  split
  · exact h
  · split
    · exact h
    · rename_i h0
      refine ⟨?_, fun he => absurd (h.2 he) h0⟩
      have := h.1
      show (l.counter - 1).toNat ≤ 254
      rw [toNat_sub_one _ h0]
      omega

theorem LengthCounter.load_ok {l : LengthCounter} (h : l.ok) (i : BitVec 5) : (l.load i).ok := by
  unfold LengthCounter.load
  split
  · rename_i he
    refine ⟨?_, fun h => by simp [he] at h⟩
    show (lenTable.get i.toFin).toNat ≤ 254
    revert i
    decide
  · exact h

theorem LengthCounter.setEnabled_ok {l : LengthCounter} (h : l.ok) (b : Bool) : (l.setEnabled b).ok := by
  unfold LengthCounter.setEnabled
  cases b
  · exact ⟨by simp, fun _ => rfl⟩
  · exact ⟨h.1, fun h => by cases h⟩

theorem Envelope.clock_ok {e : Envelope} (h : e.ok) : e.clock.ok := by
  unfold Envelope.ok at *
  simp [h]

theorem Pulse.clockSweep_ok {b : Bool} {adj : OnesAdj} {p : Pulse} (h : p.ok b) : (p.clockSweep adj).ok b := by
  obtain ⟨h1, h2, h3, h4, h5⟩ := Pulse.clockSweep_frame adj p
  exact ⟨h1 ▸ h.1, h2 ▸ h.2.1, h5 ▸ h.2.2⟩

/-! ### Noise register -/

/-- The bits of the register after a clock (R166). -/
theorem NoiseRegister.getLsbD_clock (g : NoiseRegister) (i : Nat) (hi : i < 15) :
    g.clock.shiftRegister.getLsbD i =
      if i < 14 then g.shiftRegister.getLsbD (i + 1)
      else (g.shiftRegister.getLsbD 0 ^^ g.shiftRegister.getLsbD (if g.shortMode then 6 else 1)) := by
  show (bit _ ++ g.shiftRegister.extractLsb' 1 14 : BitVec (1 + 14)).getLsbD i = _
  rw [BitVec.getLsbD_append]
  split
  · rename_i h1
    rw [BitVec.getLsbD_extractLsb']
    simp [h1, Nat.add_comm]
  · have : i = 14 := by omega
    subst this
    simp

/-! ### Schedules -/

/-- What the sequencer's own fields are after a matched entry (R177). -/
theorem FrameSequencer.atEntry_eq (fs : FrameSequencer) (e : ScheduleEntry) :
    fs.atEntry e = { fs with
      cpuCycleCounter := if e.wrap then 0 else fs.cpuCycleCounter
      interruptFlag :=
        fs.interruptFlag || (e.interrupt && decide (fs.stepCount = .four) && !fs.interruptInhibited) } := by
  unfold FrameSequencer.atEntry
  cases h : (e.interrupt && decide (fs.stepCount = .four) && !fs.interruptInhibited) <;>
    simp [FrameSequencer.raiseIrq]

/-- What is true of a schedule the block can run: even counts up to its end, where it wraps. -/
structure ScheduleFacts (l : List ScheduleEntry) : Prop where
  endEven : scheduleEnd l % 2 = 0
  even    : ∀ e ∈ l, e.count % 2 = 0
  le_end  : ∀ e ∈ l, e.count ≤ scheduleEnd l
  wraps   : ∀ e ∈ l, e.count = scheduleEnd l → e.wrap = true
  hasEnd  : ∃ e ∈ l, e.count = scheduleEnd l

theorem scheduleEnd_cons_cons (e f : ScheduleEntry) (rest : List ScheduleEntry) :
    scheduleEnd (e :: f :: rest) = scheduleEnd (f :: rest) := by
  simp [scheduleEnd, List.getLast?_cons_cons]

theorem scheduleOk_cons_cons {e f : ScheduleEntry} {rest : List ScheduleEntry} (h : scheduleOk (e :: f :: rest) = true) :
    e.count < f.count ∧ e.count % 2 = 0 ∧ e.interrupt = false ∧ scheduleOk (f :: rest) = true := by
  simpa [scheduleOk, and_assoc] using h

/-- The first count of an admitted schedule is its least. -/
theorem scheduleOk_head_le {l : List ScheduleEntry} (e : ScheduleEntry) (h : scheduleOk (e :: l) = true) :
    ∀ x ∈ e :: l, e.count ≤ x.count := by
  induction l generalizing e with
  | nil => simp
  | cons f rest ih =>
    obtain ⟨h1, -, -, h4⟩ := scheduleOk_cons_cons h
    intro x hx
    rcases List.mem_cons.1 hx with rfl | hx
    · exact Nat.le_refl _
    · have := ih f h4 x hx
      omega

/-- The counts of an admitted schedule rise strictly (R176). -/
theorem scheduleOk_pairwise {l : List ScheduleEntry} (h : scheduleOk l = true) :
    l.Pairwise (fun e f => e.count < f.count) := by
  induction l with
  | nil => exact .nil
  | cons e rest ih =>
    cases rest with
    | nil => simp
    | cons f rest =>
      obtain ⟨h1, -, -, h4⟩ := scheduleOk_cons_cons h
      exact List.pairwise_cons.2 ⟨fun x hx => Nat.lt_of_lt_of_le h1 (scheduleOk_head_le f h4 x hx), ih h4⟩

theorem scheduleOk_facts {l : List ScheduleEntry} (h : scheduleOk l = true) : ScheduleFacts l := by
  induction l with
  | nil => simp [scheduleOk] at h
  | cons e rest ih =>
    cases rest with
    | nil =>
      simp [scheduleOk] at h
      constructor <;> simp [scheduleEnd, h]
    | cons f rest =>
      obtain ⟨h1, h2, -, h4⟩ := scheduleOk_cons_cons h
      obtain ⟨i1, i2, i3, i4, x, hx, hh⟩ := ih h4
      have hlt : e.count < scheduleEnd (f :: rest) := Nat.lt_of_lt_of_le h1 (i3 f (List.mem_cons_self ..))
      constructor
      · rwa [scheduleEnd_cons_cons]
      · exact List.forall_mem_cons.2 ⟨h2, i2⟩
      · rw [scheduleEnd_cons_cons]
        exact List.forall_mem_cons.2 ⟨by omega, i3⟩
      · rw [scheduleEnd_cons_cons]
        exact List.forall_mem_cons.2 ⟨by omega, i4⟩
      · rw [scheduleEnd_cons_cons]
        exact ⟨x, List.mem_cons_of_mem _ hx, hh⟩

theorem fs4_facts : ScheduleFacts fs4 := by constructor <;> decide

theorem scheduleOf_facts {ps : Params} (h : paramsOk ps = true) (c : StepCount) : ScheduleFacts (scheduleOf ps c) := by
  cases c
  · exact fs4_facts
  · simp only [paramsOk, Bool.and_eq_true] at h
    exact scheduleOk_facts h.2

/-- A tick stays inside the schedule, and zeroes the counter only from an odd count. -/
theorem Apu.halfTick_fs {ps : Params} (h : paramsOk ps = true) (a : Apu)
    (hlt : scheduleEnd (scheduleOf ps a.fs.stepCount) = 0 ∨
      a.fs.cpuCycleCounter < scheduleEnd (scheduleOf ps a.fs.stepCount)) :
    (a.halfTick ps).fs.stepCount = a.fs.stepCount ∧
    (scheduleEnd (scheduleOf ps a.fs.stepCount) = 0 ∨
      (a.halfTick ps).fs.cpuCycleCounter < scheduleEnd (scheduleOf ps a.fs.stepCount)) ∧
    ((a.halfTick ps).fs.cpuCycleCounter = a.fs.cpuCycleCounter + 1 ∨
      ((a.halfTick ps).fs.cpuCycleCounter = 0 ∧ a.fs.cpuCycleCounter % 2 = 1)) := by
  obtain ⟨-, even, le_end, wraps, e₀, he₀, hend⟩ := scheduleOf_facts h a.fs.stepCount
  rcases a.halfTick_cases ps with ⟨hn, h'⟩ | ⟨e, he, hc, h'⟩ <;> rw [h']
  · refine ⟨rfl, ?_, .inl rfl⟩
    have := List.find?_eq_none.1 hn e₀ he₀
    simp at this
    show _ ∨ a.fs.cpuCycleCounter + 1 < _
    omega
  · have g2 := even e he
    have g3 := le_end e he
    have g4 := wraps e he
    simp only [Apu.atEntry_fs, FrameSequencer.atEntry_eq]
    refine ⟨trivial, ?_, ?_⟩
    · cases hw : e.wrap
      · have : e.count ≠ scheduleEnd (scheduleOf ps a.fs.stepCount) := fun hh => by rw [g4 hh] at hw; cases hw
        simp
        omega
      · simp
        omega
    · cases hw : e.wrap
      · left
        simp
      · right
        simp
        omega

/-! ### The channels' part of the invariant -/

/-- The invariant without the master clock's phase and the sequencer. -/
structure Apu.UnitsOk (a : Apu) : Prop where
  pulse1   : a.pulse1.ok true
  pulse2   : a.pulse2.ok false
  triangle : a.triangle.len.ok
  noise    : a.noise.len.ok ∧ a.noise.env.ok
  lfsr     : a.noise.lfsr.shiftRegister ≠ 0
  mask     : a.maskAgrees

theorem Apu.Ok.units {ps : Params} {a : Apu} (h : a.Ok ps) : a.UnitsOk :=
  ⟨h.pulse1, h.pulse2, h.triangle, h.noise, h.lfsr, h.mask⟩

theorem Apu.UnitsOk.ok {ps : Params} {a : Apu} (h : a.UnitsOk) (hp : a.masterClockPhase < ps.apuDiv)
    (hf : a.fs.ok ps) : a.Ok ps :=
  ⟨hp, hf, h.pulse1, h.pulse2, h.triangle, h.noise, h.lfsr, h.mask⟩

theorem Apu.UnitsOk.withFs {a : Apu} (h : a.UnitsOk) (f : FrameSequencer) : Apu.UnitsOk { a with fs := f } :=
  ⟨h.pulse1, h.pulse2, h.triangle, h.noise, h.lfsr, h.mask⟩

theorem Apu.UnitsOk.quarterFrame {a : Apu} (h : a.UnitsOk) : a.quarterFrame.UnitsOk := by
  obtain ⟨h1, h2, h3, h4, h5, h6⟩ := h
  exact ⟨⟨h1.1, Envelope.clock_ok h1.2.1, h1.2.2⟩, ⟨h2.1, Envelope.clock_ok h2.2.1, h2.2.2⟩, h3,
    ⟨h4.1, Envelope.clock_ok h4.2⟩, h5, h6⟩

theorem Apu.UnitsOk.halfFrame {a : Apu} (h : a.UnitsOk) (adj : OnesAdj) : (a.halfFrame adj).UnitsOk := by
  obtain ⟨h1, h2, h3, h4, h5, h6⟩ := h
  refine ⟨Pulse.clockSweep_ok ⟨LengthCounter.clock_ok h1.1, h1.2⟩,
    Pulse.clockSweep_ok ⟨LengthCounter.clock_ok h2.1, h2.2⟩, LengthCounter.clock_ok h3,
    ⟨LengthCounter.clock_ok h4.1, h4.2⟩, h5, ?_⟩
  unfold Apu.maskAgrees at *
  simp only [Apu.halfFrame, Pulse.halfFrame]
  rw [(Pulse.clockSweep_frame _ _).1, (Pulse.clockSweep_frame _ _).1]
  simpa using h6

theorem Apu.UnitsOk.halfTick {a : Apu} (h : a.UnitsOk) (ps : Params) : (a.halfTick ps).UnitsOk := by
  rcases a.halfTick_cases ps with ⟨-, h'⟩ | ⟨e, -, -, h'⟩ <;> rw [h']
  · exact h.withFs _
  · unfold Apu.atEntry
    apply Apu.UnitsOk.withFs
    have hc := h.withFs { a.fs with cpuCycleCounter := a.fs.cpuCycleCounter + 1 }
    cases e.quarter <;> cases e.half <;> simp [hc, hc.quarterFrame, hc.halfFrame, hc.quarterFrame.halfFrame]

@[simp] theorem Triangle.clockTimer_len (mp : Nat) (t : Triangle) : (t.clockTimer mp).len = t.len := by
  unfold Triangle.clockTimer Triangle.clockSeq
  simp only []
  split <;> (try split) <;> rfl

end Sys2Proof.Machine
end

