-- ==== Sys2Proof/Laws/PerInstr.lean ====
section
/-! SUPPORT. The family RowOfVariant, one lemma per constructor: an operation is well formed only on a mapper for
which its opcode-table row exists (R94). -/

namespace Sys2Proof.Laws.RowOfVariant

open Sys2Proof Sys2Proof.Machine

/-- A mapper on which the operation is well formed is one of its row's variants. -/
def Statement (i : Instr) : Prop := ∀ m : Mapper, wellFormed m i = true → m ∈ rowVariants i

theorem everywhere {i : Instr} (h : rowVariants i = allMappers) : Statement i := by
  intro m _
  rw [h]
  cases m <;> decide

/-- A row of one variant, without an address condition. -/
theorem only (k : Mapper) {i : Instr} (hw : ∀ m, wellFormed m i = decide (m = k)) (hr : rowVariants i = [k]) :
    Statement i := by
  intro m h
  rw [hw, decide_eq_true_eq] at h
  rw [hr, h]
  exact List.mem_singleton.mpr rfl

/-- A row of one variant, with an address condition. -/
theorem onlyAt (k : Mapper) {i : Instr} (b : Bool) (hw : ∀ m, wellFormed m i = (decide (m = k) && b))
    (hr : rowVariants i = [k]) : Statement i := by
  intro m h
  rw [hw, Bool.and_eq_true, decide_eq_true_eq] at h
  rw [hr, h.1]
  exact List.mem_singleton.mpr rfl

/-- A row of mappers 66 and 140, with an address condition. -/
theorem pairAt {i : Instr} (b : Bool) (hw : ∀ m, wellFormed m i = ((decide (m = .m66) || decide (m = .m140)) && b))
    (hr : rowVariants i = [.m66, .m140]) : Statement i := by
  intro m h
  rw [hw, Bool.and_eq_true, Bool.or_eq_true, decide_eq_true_eq, decide_eq_true_eq] at h
  rw [hr]
  rcases h.1 with rfl | rfl
  · exact List.mem_cons_self
  · exact List.mem_cons_of_mem _ List.mem_cons_self

/-- A row of every variant but mapper 4. -/
theorem inert {i : Instr} (hw : ∀ m, wellFormed m i = decide (m ≠ .m4)) (hr : rowVariants i = otherThanFour) :
    Statement i := by
  intro m h
  rw [hw, decide_eq_true_eq] at h
  rw [hr]
  revert h
  cases m <;> decide

theorem w4000 (duty : BitVec 2) (haltloop const : Bool) (level : BitVec 4) :
    Statement (.w4000 duty haltloop const level) :=
  everywhere rfl

theorem w4001 (en : Bool) (period : BitVec 3) (neg : Bool) (shift : BitVec 3) :
    Statement (.w4001 en period neg shift) :=
  everywhere rfl

theorem w4002 (tlow : Byte) : Statement (.w4002 tlow) :=
  everywhere rfl

theorem w4003 (lenidx : BitVec 5) (thigh : BitVec 3) : Statement (.w4003 lenidx thigh) :=
  everywhere rfl

theorem w4004 (duty : BitVec 2) (haltloop const : Bool) (level : BitVec 4) :
    Statement (.w4004 duty haltloop const level) :=
  everywhere rfl

theorem w4005 (en : Bool) (period : BitVec 3) (neg : Bool) (shift : BitVec 3) :
    Statement (.w4005 en period neg shift) :=
  everywhere rfl

theorem w4006 (tlow : Byte) : Statement (.w4006 tlow) :=
  everywhere rfl

theorem w4007 (lenidx : BitVec 5) (thigh : BitVec 3) : Statement (.w4007 lenidx thigh) :=
  everywhere rfl

theorem w4008 (control : Bool) (reload : BitVec 7) : Statement (.w4008 control reload) :=
  everywhere rfl

theorem w4009 : Statement .w4009 :=
  everywhere rfl

theorem w400A (tlow : Byte) : Statement (.w400A tlow) :=
  everywhere rfl

theorem w400B (lenidx : BitVec 5) (thigh : BitVec 3) : Statement (.w400B lenidx thigh) :=
  everywhere rfl

theorem w400C (haltloop const : Bool) (level : BitVec 4) : Statement (.w400C haltloop const level) :=
  everywhere rfl

theorem w400D : Statement .w400D :=
  everywhere rfl

theorem w400E (mode : Bool) (pidx : BitVec 4) : Statement (.w400E mode pidx) :=
  everywhere rfl

theorem w400F (lenidx : BitVec 5) : Statement (.w400F lenidx) :=
  everywhere rfl

theorem w4010 : Statement .w4010 :=
  everywhere rfl

theorem w4011 : Statement .w4011 :=
  everywhere rfl

theorem w4012 : Statement .w4012 :=
  everywhere rfl

theorem w4013 : Statement .w4013 :=
  everywhere rfl

theorem w4015 (noise triangle pulse2 pulse1 : Bool) : Statement (.w4015 noise triangle pulse2 pulse1) :=
  everywhere rfl

theorem w4017 (mode inhibit : Bool) : Statement (.w4017 mode inhibit) :=
  everywhere rfl

theorem r4015 : Statement .r4015 :=
  everywhere rfl

theorem mclk : Statement .mclk :=
  everywhere rfl

theorem scanline : Statement .scanline :=
  only .m4 (fun _ => rfl) rfl

theorem scanlineInert : Statement .scanlineInert :=
  inert (fun _ => rfl) rfl

theorem reset : Statement .reset :=
  everywhere rfl

theorem ackapu : Statement .ackapu :=
  everywhere rfl

theorem ackmap : Statement .ackmap :=
  only .m4 (fun _ => rfl) rfl

theorem ackmapInert : Statement .ackmapInert :=
  inert (fun _ => rfl) rfl

theorem m4Banksel (chrMode prgMode : Bool) (target : BitVec 3) : Statement (.m4Banksel chrMode prgMode target) :=
  only .m4 (fun _ => rfl) rfl

theorem m4Bankdata (d : Byte) : Statement (.m4Bankdata d) :=
  only .m4 (fun _ => rfl) rfl

theorem m4Mirror (mirror : Bool) : Statement (.m4Mirror mirror) :=
  only .m4 (fun _ => rfl) rfl

theorem m4Ramprot : Statement .m4Ramprot :=
  only .m4 (fun _ => rfl) rfl

theorem m4Irqlatch (d : Byte) : Statement (.m4Irqlatch d) :=
  only .m4 (fun _ => rfl) rfl

theorem m4Irqreload : Statement .m4Irqreload :=
  only .m4 (fun _ => rfl) rfl

theorem m4Irqdis : Statement .m4Irqdis :=
  only .m4 (fun _ => rfl) rfl

theorem m4Irqen : Statement .m4Irqen :=
  only .m4 (fun _ => rfl) rfl

theorem m4Sramw (offset : BitVec 13) (d : Byte) : Statement (.m4Sramw offset d) :=
  only .m4 (fun _ => rfl) rfl

theorem m4Sramr (offset : BitVec 13) : Statement (.m4Sramr offset) :=
  only .m4 (fun _ => rfl) rfl

theorem m4Cpur (a : CpuAddr) : Statement (.m4Cpur a) :=
  onlyAt .m4 _ (fun _ => rfl) rfl

theorem m4Ppur (a : PpuAddr) : Statement (.m4Ppur a) :=
  onlyAt .m4 _ (fun _ => rfl) rfl

theorem m1Load (sel : BitVec 2) (rst d : Bool) : Statement (.m1Load sel rst d) :=
  only .m1 (fun _ => rfl) rfl

theorem m1Sramw (offset : BitVec 13) (d : Byte) : Statement (.m1Sramw offset d) :=
  only .m1 (fun _ => rfl) rfl

theorem m1Sramr (offset : BitVec 13) : Statement (.m1Sramr offset) :=
  only .m1 (fun _ => rfl) rfl

theorem m1Cpur (a : CpuAddr) : Statement (.m1Cpur a) :=
  onlyAt .m1 _ (fun _ => rfl) rfl

theorem m1Ppur (a : PpuAddr) : Statement (.m1Ppur a) :=
  onlyAt .m1 _ (fun _ => rfl) rfl

theorem m0Cpur (a : CpuAddr) : Statement (.m0Cpur a) :=
  onlyAt .m0 _ (fun _ => rfl) rfl

theorem m0Ppur (a : PpuAddr) : Statement (.m0Ppur a) :=
  onlyAt .m0 _ (fun _ => rfl) rfl

theorem m2Bank (prg : BitVec 4) : Statement (.m2Bank prg) :=
  only .m2 (fun _ => rfl) rfl

theorem m2Cpur (a : CpuAddr) : Statement (.m2Cpur a) :=
  onlyAt .m2 _ (fun _ => rfl) rfl

theorem m2Ppur (a : PpuAddr) : Statement (.m2Ppur a) :=
  onlyAt .m2 _ (fun _ => rfl) rfl

theorem m3Bank (chr : BitVec 2) : Statement (.m3Bank chr) :=
  only .m3 (fun _ => rfl) rfl

theorem m3Cpur (a : CpuAddr) : Statement (.m3Cpur a) :=
  onlyAt .m3 _ (fun _ => rfl) rfl

theorem m3Ppur (a : PpuAddr) : Statement (.m3Ppur a) :=
  onlyAt .m3 _ (fun _ => rfl) rfl

theorem m7Bank (mirror : Bool) (prg : BitVec 3) : Statement (.m7Bank mirror prg) :=
  only .m7 (fun _ => rfl) rfl

theorem m7Cpur (a : CpuAddr) : Statement (.m7Cpur a) :=
  onlyAt .m7 _ (fun _ => rfl) rfl

theorem m7Ppur (a : PpuAddr) : Statement (.m7Ppur a) :=
  onlyAt .m7 _ (fun _ => rfl) rfl

theorem m66Bank (prg chr : BitVec 2) : Statement (.m66Bank prg chr) :=
  only .m66 (fun _ => rfl) rfl

theorem m140Bank (prg chr : BitVec 2) : Statement (.m140Bank prg chr) :=
  only .m140 (fun _ => rfl) rfl

theorem m66Cpur (a : CpuAddr) : Statement (.m66Cpur a) :=
  pairAt _ (fun _ => rfl) rfl

theorem m66Ppur (a : PpuAddr) : Statement (.m66Ppur a) :=
  pairAt _ (fun _ => rfl) rfl

theorem mapPpuw (a : PpuAddr) (d : Byte) : Statement (.mapPpuw a d) :=
  everywhere rfl

theorem nopNotmine (kind : BusKind) (addr : BitVec 16) (data : Byte) : Statement (.nopNotmine kind addr data) :=
  everywhere rfl

end Sys2Proof.Laws.RowOfVariant
end

