-- ==== Sys2Proof/Tests/Slice0.lean ====
section
/-! SUPPORT. The model's own tests. Expected results are the spec's: words and fields from 30_encoding.md and
95_test_vectors.md, values from the vectors of 95_test_vectors.md part 2 or from the rule named. -/

namespace Sys2Proof.Tests

open Sys2Proof Sys2Proof.Machine

/-! ### Small states and projections -/

/-- Mapper `m` at reset, 8 program chunks, `chr` graphics chunks. -/
def block (m : Mapper) (chr : Nat) : State :=
  { State.reset with map := mapReset m, cart := { resetCartridge with chrChunks := chr } }

/-- A field of the next state, if there is one. -/
def field {α : Type} (f : State → α) : Result → Option α
  | .next t => some (f t)
  | .fault _ => none
  | .refused _ => none

/-- A field after a list of event words, each one step. -/
def run {α : Type} (f : State → α) (s : State) : List EventWord → Option α
  | [] => some (f s)
  | w :: rest =>
    match step (s.withEvents [w]) with
    | .next t => run f t rest
    | .fault _ => none
    | .refused _ => none

/-! ### Ill-formed operations are refused, one for each check -/

theorem test_wellFormed_variant : wellFormed .m0 (.m4Banksel false false 0) = false := by decide
theorem test_wellFormed_inert : wellFormed .m4 .scanlineInert = false := by decide
theorem test_wellFormed_pair : wellFormed .m7 (.m66Cpur 0x8000) = false := by decide
theorem test_wellFormed_cartAddr : wellFormed .m0 (.m0Cpur 0x7FFF) = false := by decide
theorem test_wellFormed_patternAddr : wellFormed .m0 (.m0Ppur 0x2000) = false := by decide
theorem test_wellFormed_mapPpuw : wellFormed .m0 (.mapPpuw 0x2000 0) = false := by decide
theorem test_wellFormed_busWord : wellFormed .m0 (.nopNotmine .ppur 0x4000 0) = false := by decide
theorem test_wellFormed_claimed_apu : wellFormed .m0 (.nopNotmine .cpuw 0x4013 0) = false := by decide
theorem test_wellFormed_claimed_status : wellFormed .m0 (.nopNotmine .cpur 0x4015 0) = false := by decide
theorem test_wellFormed_claimed_bank : wellFormed .m2 (.nopNotmine .cpuw 0x8000 0) = false := by decide
theorem test_wellFormed_claimed_save : wellFormed .m140 (.nopNotmine .cpuw 0x6000 0) = false := by decide
theorem test_wellFormed_unclaimed :
    wellFormed .m0 (.nopNotmine .cpuw 0x4014 0) = true ∧ wellFormed .m140 (.nopNotmine .cpur 0x6000 0) = true := by
  decide

/-! ### Decoding, words written out from 30_encoding.md and 95_test_vectors.md -/

theorem test_decode_pulse1 :
    decode .m0 0x04000BF#28 = .ok (.w4000 2 true true 15) ∧ decode .m0 0x040018A#28 = .ok (.w4001 true 0 true 2) ∧
    decode .m0 0x04002FD#28 = .ok (.w4002 0xFD) ∧ decode .m0 0x0400309#28 = .ok (.w4003 1 1) := by decide

theorem test_decode_pulse2 :
    decode .m0 0x04004F4#28 = .ok (.w4004 3 true true 4) ∧ decode .m0 0x0400591#28 = .ok (.w4005 true 1 false 1) ∧
    decode .m0 0x0400680#28 = .ok (.w4006 0x80) ∧ decode .m0 0x040070A#28 = .ok (.w4007 1 2) := by decide

theorem test_decode_triangle :
    decode .m0 0x0400881#28 = .ok (.w4008 true 1) ∧ decode .m0 0x04009FF#28 = .ok .w4009 ∧
    decode .m0 0x0400A02#28 = .ok (.w400A 2) ∧ decode .m0 0x0400B18#28 = .ok (.w400B 3 0) := by decide

theorem test_decode_noise :
    decode .m0 0x0400C3A#28 = .ok (.w400C true true 10) ∧ decode .m0 0x0400D00#28 = .ok .w400D ∧
    decode .m0 0x0400E8F#28 = .ok (.w400E true 15) ∧ decode .m0 0x0400F0F#28 = .ok (.w400F 1) := by decide

theorem test_decode_ignored :
    decode .m0 0x0401001#28 = .ok .w4010 ∧ decode .m0 0x040117F#28 = .ok .w4011 ∧
    decode .m0 0x0401200#28 = .ok .w4012 ∧ decode .m0 0x0401300#28 = .ok .w4013 := by decide

theorem test_decode_control :
    decode .m0 0x0401505#28 = .ok (.w4015 false true false true) ∧
    decode .m0 0x0401740#28 = .ok (.w4017 false true) ∧ decode .m0 0x0401780#28 = .ok (.w4017 true false) ∧
    decode .m0 0x1401500#28 = .ok .r4015 := by decide

theorem test_decode_events :
    decode .m4 0x4FFFFFF#28 = .ok .mclk ∧ decode .m4 0x5000000#28 = .ok .scanline ∧
    decode .m1 0x5000000#28 = .ok .scanlineInert ∧ decode .m4 0x6000000#28 = .ok .reset ∧
    decode .m4 0x7000000#28 = .ok .ackapu ∧ decode .m4 0x8000000#28 = .ok .ackmap ∧
    decode .m140 0x8000000#28 = .ok .ackmapInert := by decide

theorem test_decode_m4_banks :
    decode .m4 0x0800046#28 = .ok (.m4Banksel false true 6) ∧ decode .m4 0x080010A#28 = .ok (.m4Bankdata 0x0A) ∧
    decode .m4 0x09FFE85#28 = .ok (.m4Banksel true false 5) ∧ decode .m4 0x0A00001#28 = .ok (.m4Mirror true) ∧
    decode .m4 0x0A00100#28 = .ok .m4Ramprot := by decide

theorem test_decode_m4_irq :
    decode .m4 0x0C00002#28 = .ok (.m4Irqlatch 2) ∧ decode .m4 0x0C00100#28 = .ok .m4Irqreload ∧
    decode .m4 0x0E00000#28 = .ok .m4Irqdis ∧ decode .m4 0x0FFFF00#28 = .ok .m4Irqen := by decide

theorem test_decode_m4_reads :
    decode .m4 0x0612355#28 = .ok (.m4Sramw 0x0123 0x55) ∧ decode .m4 0x17FFF00#28 = .ok (.m4Sramr 0x1FFF) ∧
    decode .m4 0x1FFFC00#28 = .ok (.m4Cpur 0xFFFC) ∧ decode .m4 0x31FFF00#28 = .ok (.m4Ppur 0x1FFF) := by decide

theorem test_decode_m1 :
    decode .m1 0x0E00001#28 = .ok (.m1Load 3 false true) ∧ decode .m1 0x0800080#28 = .ok (.m1Load 0 true false) ∧
    decode .m1 0x06123AB#28 = .ok (.m1Sramw 0x0123 0xAB) ∧ decode .m1 0x1612300#28 = .ok (.m1Sramr 0x0123) ∧
    decode .m1 0x1801000#28 = .ok (.m1Cpur 0x8010) ∧ decode .m1 0x3123400#28 = .ok (.m1Ppur 0x1234) := by decide

theorem test_decode_m0_m2_m3 :
    decode .m0 0x1C00000#28 = .ok (.m0Cpur 0xC000) ∧ decode .m0 0x31FFF00#28 = .ok (.m0Ppur 0x1FFF) ∧
    decode .m2 0x0800013#28 = .ok (.m2Bank 3) ∧ decode .m2 0x1800500#28 = .ok (.m2Cpur 0x8005) ∧
    decode .m2 0x3001000#28 = .ok (.m2Ppur 0x0010) ∧ decode .m3 0x08000FE#28 = .ok (.m3Bank 2) ∧
    decode .m3 0x1FFFC00#28 = .ok (.m3Cpur 0xFFFC) ∧ decode .m3 0x3012300#28 = .ok (.m3Ppur 0x0123) := by decide

theorem test_decode_m7_m66_m140 :
    decode .m7 0x0800012#28 = .ok (.m7Bank true 2) ∧ decode .m7 0x1800000#28 = .ok (.m7Cpur 0x8000) ∧
    decode .m7 0x3000000#28 = .ok (.m7Ppur 0) ∧ decode .m66 0x0800021#28 = .ok (.m66Bank 2 1) ∧
    decode .m140 0x0600030#28 = .ok (.m140Bank 3 0) ∧ decode .m66 0x1800000#28 = .ok (.m66Cpur 0x8000) ∧
    decode .m140 0x3012300#28 = .ok (.m66Ppur 0x0123) := by decide

theorem test_decode_bus :
    decode .m7 0x20010AB#28 = .ok (.mapPpuw 0x0010 0xAB) ∧ decode .m0 0x08000FF#28 = .ok (.nopNotmine .cpuw 0x8000 0xFF) ∧
    decode .m0 0x1400000#28 = .ok (.nopNotmine .cpur 0x4000 0) ∧
    decode .m4 0x3200000#28 = .ok (.nopNotmine .ppur 0x2000 0) := by decide

theorem test_decode_refuses :
    decode .m4 0x9000000#28 = .error .kindNotAnEvent ∧ decode .m4 0xF000000#28 = .error .kindNotAnEvent ∧
    decode .m4 0x2400000#28 = .error .ppuAddressTooWide ∧ decode .m4 0x3FFFF00#28 = .error .ppuAddressTooWide := by
  decide

theorem test_decodeTableWord : decodeTableWord 32 0x0401505 = some (.w4015 false true false true) := by decide
theorem test_decodeTableWord_refused : decodeTableWord 32 0x9000000 = none := by decide

/-- A placed word is the very next thing a step runs: `cpuw $4015, $0F` enables the four channels. -/
theorem test_withFetchWord :
    field (fun t => t.apu.enabledChannelsMask) (step (State.reset.withFetchWord 32 0x040150F)) = some 15#4 := by decide

/-! ### Memory and reset -/

theorem test_memory_sorted : Memory.write (Memory.write [] 7 1) 3 2 = [(3, 2), (7, 1)] := by decide
theorem test_memory_replaces : Memory.write [(3, 2), (7, 1)] 7 9 = [(3, 2), (7, 9)] := by decide
theorem test_memory_wf_refuses : Memory.wf [(7, 1), (3, 2)] = false ∧ Memory.wf [(3, 1), (3, 2)] = false := by decide
theorem test_reset_memory : State.reset.prg.wf = true ∧ State.reset.chr.wf = true ∧ State.reset.sram.wf = true := by
  decide
theorem test_reset_supported : State.reset.supported = true := by decide

/-! ### Instructions, vectors of 95_test_vectors.md part 2 -/

/-- 2.8: duty 2, halt and loop, constant, level 15, divider period 15. -/
theorem test_w4000 :
    run (fun t => (t.apu.pulse1.seq.duty, t.apu.pulse1.len.halt, t.apu.pulse1.env.constantLevel,
      t.apu.pulse1.env.divider.period, t.apu.pulse1.env.divider.counter)) State.reset [0x04000BF#28] =
      some (2, true, 15, 15, 0) := by decide

/-- P1: period 0x0FD with the counter untouched, length 254, target 1, not silenced. -/
theorem test_w4003 :
    run (fun t => (t.apu.pulse1.timer, t.apu.pulse1.len.counter, t.apu.pulse1.sweep.targetPeriod,
      t.apu.pulse1.sweep.silenced)) State.reset
      [0x0401501#28, 0x04000BF#28, 0x0400108#28, 0x04002FD#28, 0x0400308#28] =
      some ({ period := 0x0FD, counter := 0 }, 254, 1, false) := by decide

/-- P3: one pulse-2 sweep apply by the write 0xC0 of 0x4017; the second write only recomputes. -/
theorem test_w4007_w4017 :
    run (fun t => (t.apu.pulse2.timer.period, t.apu.pulse2.sweep.targetPeriod, t.apu.pulse2.env.counter)) State.reset
      [0x0401502#28, 0x04004F4#28, 0x0400591#28, 0x0400600#28, 0x040070A#28, 0x04017C0#28, 0x04017C0#28] =
      some (0x300, 0x480, 15) := by decide

/-- P4: the triangle's writes. -/
theorem test_w4008_w400A_w400B :
    run (fun t => (t.apu.triangle.timer.period, t.apu.triangle.len.counter, t.apu.triangle.lin.reloadPending,
      t.apu.triangle.lin.divider.period)) State.reset [0x0401504#28, 0x0400802#28, 0x0400A02#28, 0x0400B18#28] =
      some (2, 2, true, 2) := by decide

/-- 2.8: short mode, period 2033. -/
theorem test_w400E :
    run (fun t => (t.apu.noise.lfsr.shortMode, t.apu.noise.timer.period)) State.reset [0x0400E8F#28] =
      some (true, 2033) := by decide

/-- S9: disabling zeroes the length counter at once, and enabling again does not bring it back. -/
theorem test_w4015_disables :
    run (fun t => (t.apu.pulse1.len.counter, t.apu.pulse1.len.enabled)) State.reset
      [0x0401501#28, 0x0400308#28, 0x0401500#28, 0x0401501#28] = some (0, true) := by decide

/-- 2.8: the read returns 0x05 when pulse 1 and the triangle count. -/
theorem test_r4015 :
    run (fun t => t.answer) State.reset
      [0x040150F#28, 0x0400308#28, 0x0400B18#28, 0x1401500#28] = some (.status 0x05) := by decide

/-- 2.7 and 2.8: an unreadable APU address. -/
theorem test_notMine :
    run (fun t => t.answer) State.reset [0x1400000#28] = some .notMine := by decide

/-- 2.7: the first CPU cycle moves the pulse steps to 1 and the register to 0x4000; the fourth master clock is the second
CPU cycle. -/
theorem test_mclk :
    run (fun t => (t.apu.pulse1.seq.step, t.apu.noise.lfsr.shiftRegister, t.apu.masterClockPhase,
      t.apu.fs.cpuCycleCounter)) State.reset [0x4000000#28] = some (1, 0x4000, 1, 2) ∧
    run (fun t => (t.apu.evenCycleParity, t.apu.fs.cpuCycleCounter)) State.reset
      [0x4000000#28, 0x4000000#28, 0x4000000#28, 0x4000000#28] = some (true, 4) := by decide

/-- 2.4: the sweep's table, pulse 1 and pulse 2 apart by one when negating. -/
theorem test_sweep_target :
    let w : Bool → Sweep := fun ones => { sweepReset ones with negate := true, shiftCount := 1 }
    ((w true).recompute .plus 0x100).targetPeriod = 0x081 ∧ ((w false).recompute .plus 0x100).targetPeriod = 0x080 := by
  decide

/-- 2.4 and R136: with `SWEEP_ONES_ADJ = -1` the value -1 is stored as 4095 and silences. -/
theorem test_sweep_minus_one :
    let w : Sweep := { sweepReset true with negate := true }
    (w.recompute .minus 0x7FF).targetPeriod = 4095 ∧ (w.recompute .minus 0x7FF).silenced = true := by decide

/-- 2.1: a divider of period 2. -/
theorem test_divider :
    ({ period := 2#3, counter := 2#3 } : Divider 3).clock = ({ period := 2, counter := 1 }, false) ∧
    ({ period := 2#3, counter := 0#3 } : Divider 3).clock = ({ period := 2, counter := 2 }, true) := by decide

/-- 2.1: a gated timer does not count. -/
theorem test_timer_gated : timerClock 2 ({ period := 1#11, counter := 3#11 } : Divider 11) = (⟨1, 3⟩, false) := by decide

/-- 2.6: single steps of the noise register. -/
theorem test_lfsr :
    (NoiseRegister.clock { shiftRegister := 0x0041, shortMode := true }).shiftRegister = 0x0020 ∧
    (NoiseRegister.clock { shiftRegister := 0x0041, shortMode := false }).shiftRegister = 0x4020 := by decide

/-- 2.6: the duty rows, step 0 first. -/
theorem test_duty :
    (List.range 8).map (fun i => PulseSeq.value defaultParams { duty := 3, step := BitVec.ofNat 3 i }) =
      [true, false, false, true, true, true, true, true] := by decide

/-- 2.6: the ramp at steps 0, 15, 16 and 31. -/
theorem test_ramp : [triTable 0, triTable 15, triTable 16, triTable 31] = [15, 0, 0, 15] := by decide

/-- 2.5: a reload loads and, with the control flag clear, is taken once. -/
theorem test_linear :
    (LinearCounter.clock { reloadPending := true, controlFlag := false, divider := ⟨3, 0⟩ }) =
      { reloadPending := false, controlFlag := false, divider := ⟨3, 3⟩ } := by decide

/-- 2.7: the fourth step sets the flag, wraps the counter and sends both pulses. -/
theorem test_frame_interrupt :
    ((apuReset defaultParams).fs.interruptFlag, (FrameSequencer.atEntry { fsReset with cpuCycleCounter := 59660 }
      ⟨59660, true, true, true, true⟩)) =
      (false, { cpuCycleCounter := 0, stepCount := .four, interruptInhibited := false, interruptFlag := true }) := by
  decide

/-- 2.8: the mixer tables at 15 and 45. -/
theorem test_mixer : pulseTable 15 = 1791 / 12035 ∧ triangleNoiseTable 45 = 147303 / 576580 := by
  constructor <;> norm_num [pulseTable, triangleNoiseTable]

/-- S7: five serial writes commit 5 to `control`. -/
theorem test_m1Load :
    run (fun t => (t.map, t.mirrorMode)) (block .m1 4)
      [0x0800001#28, 0x0800000#28, 0x0800001#28, 0x0800000#28, 0x0800000#28] =
      some (.m1 { mmc1Reset with control := 0x05 }, .oneScreenHi) := by decide

/-- P6: the last program bank stays at 0xC000; graphics bank 3 after its load, in 4 KiB mode. -/
theorem test_m1_reads :
    programOffset { block .m1 4 with map := .m1 ⟨16, 0x1E, 3, 6, 5⟩ } 0x8010 = 0x14010 ∧
    programOffset { block .m1 4 with map := .m1 ⟨16, 0x1E, 3, 6, 5⟩ } 0xC000 = 0x1C000 ∧
    patternOffset { block .m1 4 with map := .m1 ⟨16, 0x1E, 3, 6, 5⟩ } 0x1234 = 0x6234 := by decide

/-- P6: save memory reads back what was written. -/
theorem test_m1_sram :
    run (fun t => t.answer) (block .m1 4) [0x06123AB#28, 0x1612300#28] = some (.read .sram 0x0123 0xAB) := by decide

/-- P7: banks by register 6 and register 0. -/
theorem test_m4_banks :
    run (fun t => (programOffset t 0x8004, patternOffset t 0x0400)) (block .m4 16)
      [0x0800006#28, 0x080010A#28, 0x0800000#28, 0x0800105#28] = some (0x14004, 0x1400) := by decide

/-- P7: reload value 2, the interrupt on the fourth scanline. -/
theorem test_m4_scanlines :
    run (fun t => t.mapIrq) (block .m4 16)
      [0x0C00002#28, 0x0C00100#28, 0x0E00100#28, 0x5000000#28, 0x5000000#28, 0x5000000#28] = some false ∧
    run (fun t => t.mapIrq) (block .m4 16)
      [0x0C00002#28, 0x0C00100#28, 0x0E00100#28, 0x5000000#28, 0x5000000#28, 0x5000000#28, 0x5000000#28] = some true := by
  decide

/-- 2.9: the simple mappers' bank writes and reads. -/
theorem test_m2 : run (fun t => (programOffset t 0x8005, programOffset t 0xFFFC)) (block .m2 0) [0x0800013#28] =
    some (0xC005, 0x1FFFC) := by decide
theorem test_m3 : run (fun t => patternOffset t 0x0123) (block .m3 4) [0x08000FE#28] = some 0x4123 := by decide
theorem test_m7 : run (fun t => (programOffset t 0xFFFC, t.mirrorMode)) (block .m7 0) [0x0800012#28] =
    some (0x17FFC, .oneScreenHi) := by decide
theorem test_m66 : run (fun t => (programOffset t 0x8000, patternOffset t 0x0123)) (block .m66 4) [0x0800021#28] =
    some (0x10000, 0x2123) := by decide
theorem test_m140 : run (fun t => (programOffset t 0x8000, patternOffset t 0)) (block .m140 4) [0x0600030#28] =
    some (0x18000, 0) := by decide

/-- 2.9: graphics RAM is written and read; graphics ROM is not the block's. -/
theorem test_mapPpuw :
    run (fun t => t.answer) (block .m0 0) [0x20010AB#28, 0x3001000#28] = some (.read .chr 0x0010 0xAB) ∧
    run (fun t => (t.answer, t.chr)) (block .m0 4) [0x20010AB#28] = some (.notMine, []) := by decide

/-- R350: RESET keeps the storages and clears the rest. -/
theorem test_reset_keeps_storage :
    run (fun t => (t.chr, t.apu.enabledChannelsMask)) (block .m0 0) [0x20010AB#28, 0x040150F#28, 0x6000000#28] =
      some ([(0x10, 0xAB)], 0) := by decide

/-! ### Witnesses: for every statement with hypotheses, a state and operands that meet them together -/

/-- A sequencer about to finish the 4-step sequence. -/
def fourthStep : Apu := { apuReset defaultParams with fs := { fsReset with cpuCycleCounter := 59659 } }

theorem witness_DecodeOfEncode : wellFormed .m4 (.m4Cpur 0x8000) = true ∧ wellFormed .m0 (.mapPpuw 0x1FFF 0xFF) = true := by
  decide

theorem witness_DecodedInstructions : decode .m140 0x0600030#28 = .ok (.m140Bank 3 0) := by decide

theorem witness_StepRuns :
    let s : State := State.reset.withEvents [0x0401505#28]
    s.supported = true ∧ s.events = 0x0401505#28 :: [] ∧ decode s.mapper 0x0401505#28 = .ok (.w4015 false true false true) := by
  decide

theorem witness_StepWithNothing_idle : State.reset.supported = true ∧ State.reset.events = [] := by decide

theorem witness_StepWithNothing_noBlock :
    ({ State.reset with cart := { resetCartridge with prgChunks := 0 } } : State).supported = false := by decide

theorem witness_StepWithNothing_noEvent :
    let s : State := State.reset.withEvents [0x9000000#28]
    s.supported = true ∧ s.events = 0x9000000#28 :: [] ∧ decode s.mapper 0x9000000#28 = .error .kindNotAnEvent := by
  decide

theorem witness_EveryWellFormed : wellFormed (block .m66 4).mapper (.m66Ppur 0x1FFF) = true := by decide

theorem witness_RowsOfAnother : State.reset.mapper ∉ rowVariants (.m2Bank 15) := by decide

/-- Mapper 1 right after instantiation, one master clock pending. -/
def oneClockPending : State := { block .m1 0 with events := [0x4000000#28] }

theorem witness_StepKeeps : oneClockPending.Inv ∧ ∃ t, step oneClockPending = .next t := by
  refine ⟨⟨by decide, ⟨by decide, ⟨by decide, by decide⟩, ?_, ?_, ?_, ?_, by decide, rfl⟩, (show (0b10000#5) ≠ 0 by decide),
    ⟨rfl, rfl, rfl, rfl, rfl, rfl, fun _ => rfl⟩⟩, _, rfl⟩
  · exact ⟨⟨by decide, fun _ => rfl⟩, rfl, rfl⟩
  · exact ⟨⟨by decide, fun _ => rfl⟩, rfl, rfl⟩
  · exact ⟨by decide, fun _ => rfl⟩
  · exact ⟨⟨by decide, fun _ => rfl⟩, rfl⟩

theorem witness_NoEventChanges :
    (∃ t, exec (.mapPpuw 0 1) (block .m0 4) = .next t) ∧ (block .m0 4).cart.chrChunks ≠ 0 := ⟨⟨_, rfl⟩, by decide⟩

theorem witness_OnlyTheStoredByte :
    (∃ t, exec (.m4Sramw 0x1FFF 1) State.reset = .next t) ∧ storedAt (.m4Sramw 0x1FFF 1) State.reset ≠ some (.sram, 0x1FFE) :=
  ⟨⟨_, rfl⟩, by decide⟩

theorem witness_InterruptLatches_frameSet :
    let s : State := { State.reset with apu := fourthStep }
    s.apu.fs.interruptFlag = false ∧ field (fun t => t.apu.fs.interruptFlag) (exec .mclk s) = some true := by decide

theorem witness_InterruptLatches_frameCleared :
    let s : State := { State.reset with apu := { apuReset defaultParams with fs := { fsReset with interruptFlag := true } } }
    s.apu.fs.interruptFlag = true ∧ field (fun t => t.apu.fs.interruptFlag) (exec (.w4017 true true) s) = some false ∧
    field (fun t => t.apu.fs.interruptFlag) (exec .r4015 s) = some false ∧
    field (fun t => t.apu.fs.interruptFlag) (exec .ackapu s) = some false := by decide

theorem witness_InterruptLatches_mapper :
    let raised : State := { State.reset with map := .m4 { mmc3Reset with irqEnabled := true } }
    let pending : State := { State.reset with map := .m4 { mmc3Reset with irqPending := true } }
    raised.mapIrq = false ∧ field State.mapIrq (exec .scanline raised) = some true ∧
    pending.mapIrq = true ∧ field State.mapIrq (exec .ackmap pending) = some false ∧
    field State.mapIrq (exec .m4Irqdis pending) = some false := by decide

theorem witness_ApuAndMapperEvents :
    (∃ t, exec (.w4002 1) State.reset = .next t) ∧ isApuRow (.w4002 1) = true ∧
    (∃ t, exec (.m4Bankdata 1) State.reset = .next t) ∧ isApuRow (.m4Bankdata 1) = false ∧ Instr.m4Bankdata 1 ≠ .reset :=
  ⟨⟨_, rfl⟩, rfl, ⟨_, rfl⟩, rfl, by decide⟩

theorem witness_IgnoredWrites : Instr.w4013 ∈ [Instr.w4009, .w400D, .w4010, .w4011, .w4012, .w4013] := by decide

/-- R176: an `FS5` whose first count is 0 is admitted; one that does not rise, is odd, raises the interrupt or does not
wrap at its end is not. -/
theorem test_scheduleOk :
    scheduleOk [⟨0, true, false, false, false⟩, ⟨59660, true, true, false, true⟩] = true ∧
    scheduleOk [⟨0, true, false, false, true⟩] = true ∧
    scheduleOk [⟨4, true, false, false, false⟩, ⟨4, true, true, false, true⟩] = false ∧
    scheduleOk [⟨3, true, false, false, true⟩] = false ∧
    scheduleOk [⟨4, true, false, true, true⟩] = false ∧
    scheduleOk [⟨4, true, false, false, false⟩] = false ∧
    scheduleOk [] = false := by decide

theorem witness_HalfTick_between :
    paramsOk defaultParams = true ∧ ∀ e ∈ scheduleOf defaultParams .four, e.count ≠ fsReset.cpuCycleCounter + 1 := by decide

theorem witness_HalfTick_entry :
    (⟨59660, true, true, true, true⟩ : ScheduleEntry) ∈ scheduleOf defaultParams fourthStep.fs.stepCount ∧
    59660 = fourthStep.fs.cpuCycleCounter + 1 := by decide

theorem witness_FourStepSequence :
    (apuReset defaultParams).fs.cpuCycleCounter = 0 ∧ (apuReset defaultParams).fs.stepCount = .four ∧
    29829 + 1 = 29830 ∧ 0 + 1 ∉ [7457, 14914, 22371, 29830] ∧ 7456 + 1 ∈ [7457, 22371] := by decide

theorem witness_Cpucyc : (2 : Nat) < defaultParams.apuDiv ∧
    ({ apuReset defaultParams with masterClockPhase := 2 } : Apu).masterClockPhase < defaultParams.apuDiv := by decide

theorem witness_DividerFires :
    let d : Divider 3 := { period := 5, counter := 5 }
    d.counter = d.period ∧ 5 ≤ d.period.toNat ∧ 4 < d.period.toNat := by decide

theorem witness_TimerBelowMinimum :
    (1#11).toNat < 2 ∧ 2 ≤ (2#11).toNat ∧ (0#11) = 0 ∧ (1#11) ≠ 0 := by decide

theorem witness_LengthCounters :
    ({ lenReset with halt := true } : LengthCounter).halt = true ∧ lenReset.halt = false := by decide

theorem witness_EnvelopeClock :
    (envReset.restart).restartPending = true ∧ envReset.restartPending = false ∧ envReset.divider.counter = 0 ∧
    ({ envReset with divider := ⟨2, 1⟩ } : Envelope).divider.counter ≠ 0 := by decide

theorem witness_EnvelopeDecays :
    let e : Envelope := (envReset.write false false 2).restart
    let looping : Envelope := (envReset.write true false 2).restart
    e.restartPending = true ∧ e.divider.period = e.constantLevel ∧ e.loop = false ∧
    looping.restartPending = true ∧ looping.divider.period = looping.constantLevel ∧ looping.loop = true := by decide

/-- R127, R130: with `loop`, level 0, the sixteenth fire after the restart returns the level to 15. -/
theorem test_envelope_loops :
    (Envelope.clock^[1 + 15] (envReset.write true false 0).restart).counter = 0 ∧
    (Envelope.clock^[1 + 16] (envReset.write true false 0).restart).counter = 15 := by decide

theorem witness_SweepTarget :
    ({ sweepReset true with negate := true } : Sweep).negate = true ∧ (sweepReset true).usesOnesComplement = true ∧
    (sweepReset false).usesOnesComplement = false ∧ (sweepReset false).negate = false ∧
    (({ sweepReset true with negate := true } : Sweep).recompute .minus 0x100).targetPeriod.toNat = 4095 := by decide

/-- R136, D12: at `SWEEP_ONES_ADJ = -1` pulse 1 negates 0x100 by a shift of 1 to 0x7F. -/
theorem test_sweep_minus_adjustment :
    (({ sweepReset true with negate := true, shiftCount := 1 } : Sweep).recompute .minus 0x100).targetPeriod = 0x7F := by
  decide

theorem witness_SweepClock_applies :
    let p : Pulse := { pulseReset false with
      timer := ⟨0x3FF, 0⟩, sweep := { sweepReset false with enabled := true, shiftCount := 1 } }
    let w := p.sweep.recompute .plus p.timer.period
    w.divider.counter = 0 ∧ w.enabled = true ∧ w.shiftCount ≠ 0 ∧ w.silenced = false := by decide

theorem witness_NoiseRegister : (noiseReset defaultParams).lfsr.shiftRegister ≠ 0 := by decide

theorem witness_MirrorMode :
    (block .m140 4).mapper ∈ [Mapper.m0, .m2, .m3, .m66, .m140] ∧ (block .m1 4).map = .m1 mmc1Reset ∧
    (block .m4 4).map = .m4 mmc3Reset ∧ (block .m7 4).map = .m7 ⟨0, false⟩ := by decide

theorem witness_SerialMapper : (block .m1 4).map = .m1 mmc1Reset ∧ mmc1Reset.shift = 16 := by decide

theorem witness_ScanlineMapper : (block .m4 16).map = .m4 mmc3Reset ∧ (0x1FFF#14).toNat < 0x2000 := by decide

theorem witness_ScanlineEvents : (block .m4 16).map = .m4 mmc3Reset ∧ (block .m0 16).mapper ≠ .m4 := by decide

theorem witness_ScanlineInterrupt :
    let m : Mmc3 := { mmc3Reset with irqReloadValue := 255, irqEnabled := true }
    m.irqReloadValue ≠ 0 ∧ m.irqEnabled = true ∧ ({ m with reloadPending := true } : Mmc3).reloadPending = true ∧
    m.reloadPending = false ∧ ({ m with irqCounter := 255 } : Mmc3).irqCounter = m.irqReloadValue ∧
    255 ≤ m.irqReloadValue.toNat := by decide

theorem witness_SimpleMapperWrites :
    (block .m2 4).mapper = .m2 ∧ (block .m3 4).mapper = .m3 ∧ (block .m7 4).mapper = .m7 ∧ (block .m66 4).mapper = .m66 ∧
    (block .m140 4).mapper = .m140 := by decide

theorem witness_SimpleMapperReads :
    (0x1FFF#14).toNat < 0x2000 ∧ (block .m0 4).map = .m0 ∧ (block .m2 4).map = .m2 0 ∧ (block .m3 4).map = .m3 0 ∧
    (block .m7 4).map = .m7 ⟨0, false⟩ ∧ (block .m66 4).map = .m66 ⟨0, 0⟩ ∧ (block .m140 4).map = .m140 ⟨0, 0⟩ := by decide

theorem witness_SaveMemory :
    ((block .m1 4).mapper = .m1 ∧ Instr.m1Sramr 0x1FFF = .m1Sramr 0x1FFF ∧ Instr.m1Sramw 0x1FFF 7 = .m1Sramw 0x1FFF 7) ∧
    ((block .m4 4).mapper = .m4 ∧ Instr.m4Sramr 0 = .m4Sramr 0 ∧ Instr.m4Sramw 0 7 = .m4Sramw 0 7) := by decide

theorem witness_GraphicsWrites : (block .m0 0).cart.chrChunks = 0 ∧ (block .m0 1).cart.chrChunks ≠ 0 := by decide

theorem witness_TranslatedOffsets : 1 ≤ State.reset.cart.prgChunks := by decide

theorem witness_BusEvents :
    (0x4014#16 ≠ 0x4015#16) ∧ apuWriteAddr 0x4014 = false ∧ mapCpuWrite (block .m1 4) 0x6000 = .sram 0 ∧
    mapCpuWrite (block .m140 4) 0x7FFF = .handled ∧ mapCpuWrite (block .m140 4) 0x8000 = .notMine ∧
    mapCpuWrite (block .m4 4) 0x8000 = .handled ∧ mapCpuWrite (block .m4 4) 0x5FFF = .notMine := by decide

theorem witness_Instantiation :
    (∃ s, instantiate 140 defaultParams resetCartridge [0x11] [0x22] [] = .ok s) ∧ paramsOk defaultParams = true ∧
    (∃ s, instantiate 1 defaultParams resetCartridge [] [] [0x33] = .ok s ∧ s.mapper ∈ [Mapper.m1, .m4]) ∧
    ([0x33#8][0]? = some 0x33 ∧ 0 < resetCartridge.prgChunks * 16384) :=
  ⟨⟨_, rfl⟩, by decide, ⟨_, rfl, by decide⟩, rfl, by decide⟩

theorem witness_SaveMemoryImage :
    (List.replicate 8192 (0#8)).length = 8192 ∧ (block .m1 4).mapper.hasSram = true := ⟨List.length_replicate, by decide⟩

end Sys2Proof.Tests
end

section
/-! What one step does, an equation per case of `step` and of `takeEvent`, and the two statements about the step's scope
(R9) read off them. -/

namespace Sys2Proof.Machine

/-! ### Taking one event word -/

theorem takeEvent_of_decode_ok {w : EventWord} {s : State} {i : Instr} (h : decode s.mapper w = .ok i) :
    takeEvent w s = exec i s := by
  simp only [takeEvent, h]

theorem takeEvent_of_decode_error {w : EventWord} {s : State} {e : DecodeError} (h : decode s.mapper w = .error e) :
    takeEvent w s = .refused (.refusedWord e) := by
  simp only [takeEvent, h]

/-! ### The cases of a step -/

theorem step_of_not_supported {s : State} (hs : s.supported = false) : step s = .refused .unsupportedCartridge := by
  simp [step, hs]

theorem step_of_events_nil {s : State} (hs : s.supported = true) (he : s.events = []) : step s = .next s := by
  simp only [step, hs, he, if_true]

theorem step_of_events_cons {s : State} {w : EventWord} {rest : List EventWord} (hs : s.supported = true)
    (he : s.events = w :: rest) : step s = takeEvent w (s.withEvents rest) := by
  simp only [step, hs, he, if_true]

/-! ### The statements -/

/-- Settles O6: taking the word off the queue keeps the variant, so the word decodes as it did while pending. -/
theorem stepRunsTheDecodedInstruction : Obligations.StepRunsTheDecodedInstruction := by
  intro s w rest i hs he hd
  have hd' : decode (s.withEvents rest).mapper w = .ok i := by rwa [State.withEvents_mapper]
  calc step s = takeEvent w (s.withEvents rest) := step_of_events_cons hs he
    _ = exec i { s with events := rest } := takeEvent_of_decode_ok hd'

/-- Settles O7: the two cases of `step` that take no event, and the refused word of `takeEvent`. -/
theorem stepWithNothingToRunHoldsOrStops : Obligations.StepWithNothingToRunHoldsOrStops := by
  refine ⟨fun _ => step_of_events_nil, fun _ => step_of_not_supported, ?_⟩
  intro s w rest e hs he hd
  have hd' : decode (s.withEvents rest).mapper w = .error e := by rwa [State.withEvents_mapper]
  calc step s = takeEvent w (s.withEvents rest) := step_of_events_cons hs he
    _ = .refused (.refusedWord e) := takeEvent_of_decode_error hd'

end Sys2Proof.Machine
end

section
/-! What an event can do to the whole state, said once: an operation that completes leaves one of six shapes of next
state (R13, R53, R59). The two statements about what stays unchanged (R53, R56, R244) are read off it. -/

namespace Sys2Proof.Machine

/-- The next states an operation `i` that completes in `s` can leave, each with the part of the state it replaces, the
answer, and what allows `i` to replace it. -/
inductive Effect (i : Instr) (s : State) : State → Prop where
  /-- Nothing but the answer: storage reads, ignored addresses, inert and unclaimed events. -/
  | answer (r : Answer) : Effect i s (s.withAnswer r)
  /-- The APU, by one of its own rows. -/
  | apu (a : Apu) (r : Answer) (row : isApuRow i = true) : Effect i s ((s.withApu a).withAnswer r)
  /-- The mapper's registers, of the installed variant, by a row that is not the APU's. -/
  | registers (m : MapState) (r : Answer) (row : isApuRow i = false) (variant : (s.withMap m).mapper = s.mapper) :
      Effect i s ((s.withMap m).withAnswer r)
  /-- `RESET` (R350). -/
  | reset (row : i = .reset) : Effect i s (s.resetEvent.withAnswer .nothing)
  /-- One byte of save memory (R287, R302). -/
  | sram (o : Nat) (d : Byte) (stored : storedAt i s = some (.sram, o)) :
      Effect i s ((s.withSram (s.sram.write o d)).withAnswer (.stored .sram o))
  /-- One byte of graphics RAM (R247). -/
  | chr (o : Nat) (d : Byte) (ram : chrIsRam s.cart = true) (stored : storedAt i s = some (.chr, o)) :
      Effect i s ((s.withChr (s.chr.write o d)).withAnswer (.stored .chr o))

/-! ### The effect of each shape of meaning -/

section Shapes

variable {i : Instr} {s t : State} {r : Answer}

theorem effect_of_finish (h : finish r s = .next t) : Effect i s t := by
  obtain rfl := finish_eq_next.1 h
  exact .answer r

theorem effect_of_onMapper_finish {ms : List Mapper} (h : s.onMapper ms (finish r s) = .next t) : Effect i s t :=
  effect_of_finish (onMapper_eq_next.1 h).2

theorem effect_of_finish_withApu {a : Apu} (row : isApuRow i = true) (h : finish r (s.withApu a) = .next t) :
    Effect i s t := by
  obtain rfl := finish_eq_next.1 h
  exact .apu a r row

theorem effect_of_onM4 {f : Mmc3 → Mmc3} (row : isApuRow i = false)
    (h : (s.onM4 fun m => finish r (s.withMap (.m4 (f m)))) = .next t) : Effect i s t := by
  obtain ⟨m, hm, h⟩ := onM4_eq_next.1 h
  obtain rfl := finish_eq_next.1 h
  exact .registers _ r row (by simp [State.mapper, hm])

theorem effect_of_onM1 {f : Mmc1 → Mmc1} (row : isApuRow i = false)
    (h : (s.onM1 fun m => finish r (s.withMap (.m1 (f m)))) = .next t) : Effect i s t := by
  obtain ⟨m, hm, h⟩ := onM1_eq_next.1 h
  obtain rfl := finish_eq_next.1 h
  exact .registers _ r row (by simp [State.mapper, hm])

theorem effect_of_writeBank {k : Mapper} {m : MapState} (h : writeBank [k] m s = .next t)
    (row : isApuRow i = false) (hk : (s.withMap m).mapper = k) : Effect i s t := by
  obtain ⟨hs, rfl⟩ := writeBank_eq_next.1 h
  exact .registers m _ row (hk.trans (List.mem_singleton.1 hs).symm)

theorem effect_of_onMapper_writeSram {ms : List Mapper} {o : Nat} {d : Byte}
    (stored : storedAt i s = some (.sram, o)) (h : s.onMapper ms (writeSram o d s) = .next t) : Effect i s t := by
  obtain rfl := writeSram_eq_next.1 (onMapper_eq_next.1 h).2
  exact .sram o d stored

theorem storedAt_mapPpuw_of_ram {a : PpuAddr} {d : Byte} (ram : chrIsRam s.cart = true) :
    storedAt (.mapPpuw a d) s = some (.chr, patternOffset s a) := if_pos ram

/-- `MAP.PPUW` stores only when the graphics storage is RAM (R247). -/
theorem effect_of_execMapPpuw {a : PpuAddr} {d : Byte} (h : execMapPpuw a d s = .next t) :
    Effect (.mapPpuw a d) s t := by
  unfold execMapPpuw at h
  split at h
  next ram =>
    obtain rfl := writeChr_eq_next.1 h
    exact .chr _ d ram (storedAt_mapPpuw_of_ram ram)
  next => exact effect_of_finish h

theorem effect_of_execReset (h : execReset s = .next t) : Effect .reset s t := by
  obtain rfl := finish_eq_next.1 h
  exact .reset rfl

end Shapes

/-- Every operation that completes has one of the six effects: its meaning has one of the shapes above. -/
theorem effect_of_exec {i : Instr} {s t : State} (h : exec i s = .next t) : Effect i s t := by
  cases i with
  | w4009 | w400D | w4010 | w4011 | w4012 | w4013 | nopNotmine => exact effect_of_finish h
  | w4000 | w4001 | w4002 | w4003 | w4004 | w4005 | w4006 | w4007 | w4008 | w400A | w400B | w400C | w400E | w400F
  | w4015 | w4017 | r4015 | mclk | ackapu => exact effect_of_finish_withApu rfl h
  | scanline | ackmap | m4Banksel | m4Bankdata | m4Mirror | m4Ramprot | m4Irqlatch | m4Irqreload | m4Irqdis | m4Irqen =>
    exact effect_of_onM4 rfl h
  | m1Load => exact effect_of_onM1 rfl h
  | m2Bank | m3Bank | m7Bank | m66Bank | m140Bank => exact effect_of_writeBank h rfl rfl
  | scanlineInert | ackmapInert | m1Sramr | m4Sramr
  | m0Cpur | m1Cpur | m2Cpur | m3Cpur | m4Cpur | m7Cpur | m66Cpur
  | m0Ppur | m1Ppur | m2Ppur | m3Ppur | m4Ppur | m7Ppur | m66Ppur => exact effect_of_onMapper_finish h
  | m1Sramw | m4Sramw => exact effect_of_onMapper_writeSram rfl h
  | mapPpuw => exact effect_of_execMapPpuw h
  | reset => exact effect_of_execReset h

/-! ### What every effect keeps -/

theorem State.resetEvent_mapper (s : State) : s.resetEvent.mapper = s.mapper := by
  show (s.withMap (mapReset s.mapper)).mapper = s.mapper
  cases s.mapper <;> rfl

/-- Graphics ROM is not RAM (R52). -/
theorem chrIsRam_eq_true {c : Cartridge} : chrIsRam c = true ↔ c.chrChunks = 0 := decide_eq_true_iff

/-- A save memory write changes no other byte of any storage. -/
theorem State.byteAt_sram_write_other {s : State} {sp : Space} {a o : Nat} (d : Byte)
    (h : some (Space.sram, a) ≠ some (sp, o)) : (s.withSram (s.sram.write a d)).byteAt sp o = s.byteAt sp o := by
  cases sp with
  | prg | chr => rfl
  | sram => exact (s.byteAt_sram_write a o d).trans (if_neg fun ho => h (by rw [ho]))

/-- A graphics RAM write changes no other byte of any storage. -/
theorem State.byteAt_chr_write_other {s : State} {sp : Space} {a o : Nat} (d : Byte)
    (h : some (Space.chr, a) ≠ some (sp, o)) : (s.withChr (s.chr.write a d)).byteAt sp o = s.byteAt sp o := by
  cases sp with
  | prg | sram => rfl
  | chr => exact (s.byteAt_chr_write a o d).trans (if_neg fun ho => h (by rw [ho]))

/-! ### The statements -/

/-- Settles O12: of the six effects, the register writes and `RESET` keep the variant, and graphics storage is written
only where it is RAM. -/
theorem noEventChangesParametersVariantOrRom : Obligations.NoEventChangesParametersVariantOrRom := by
  intro i s t h
  cases effect_of_exec h with
  | answer | apu | sram => simp
  | registers m r _ variant => exact ⟨rfl, rfl, variant, rfl, rfl, fun _ => rfl⟩
  | reset => exact ⟨rfl, rfl, s.resetEvent_mapper, rfl, rfl, fun _ => rfl⟩
  | chr o d ram => exact ⟨rfl, rfl, rfl, rfl, rfl, fun rom => absurd (chrIsRam_eq_true.1 ram) rom⟩

/-- Settles O13: of the six effects, only the two stores touch a storage, each at the operation's own offset. -/
theorem onlyTheStoredByteOfMemoryChanges : Obligations.OnlyTheStoredByteOfMemoryChanges := by
  intro i s t h sp o ho
  cases effect_of_exec h with
  | answer | apu | registers | reset => rfl
  | sram a d stored => rw [State.withAnswer_byteAt, State.byteAt_sram_write_other d (stored ▸ ho)]
  | chr a d _ stored => rw [State.withAnswer_byteAt, State.byteAt_chr_write_other d (stored ▸ ho)]

end Sys2Proof.Machine
end

section
/-! The divider's period law (R100, R102) and the channel timer's gate (R106): what a clock does to a counter written as a
number, the counter after any number of clocks short of zero, and the two statements read off them. -/

namespace Sys2Proof.Machine

/-! ### The divider's countdown -/

/-- Above zero a clock lowers the counter by one and does not fire (R100). -/
theorem Divider.clock_ofNat_succ {w n : Nat} (d : Divider w) (h : n + 1 < 2 ^ w) :
    ({ d with counter := BitVec.ofNat w (n + 1) } : Divider w).clock =
      ({ d with counter := BitVec.ofNat w n }, false) := by
  have hval : (BitVec.ofNat w (n + 1)).toNat = n + 1 := by
    rw [BitVec.toNat_ofNat, Nat.mod_eq_of_lt h]
  have hne : BitVec.ofNat w (n + 1) ≠ 0 := fun h0 => by simp [h0] at hval
  rw [Divider.clock_of_ne hne, sub_one_eq _ hne, hval, Nat.add_sub_cancel]

/-- A clock `k` of a countdown from `c`, while the counter is above zero. -/
theorem Divider.clock_ofNat_sub {w k : Nat} (d : Divider w) (c : BitVec w) (hk : k < c.toNat) :
    ({ d with counter := BitVec.ofNat w (c.toNat - k) } : Divider w).clock =
      ({ d with counter := BitVec.ofNat w (c.toNat - (k + 1)) }, false) := by
  have hsucc : c.toNat - k = c.toNat - (k + 1) + 1 := by omega
  rw [hsucc]
  exact d.clock_ofNat_succ (by have := c.isLt; omega)

/-- After `k` clocks, as many as the counter holds at most, the counter is lower by `k`, whatever the period. -/
theorem Divider.iterate_clock {w : Nat} (d : Divider w) (k : Nat) (hk : k ≤ d.counter.toNat) :
    (fun e : Divider w => e.clock.1)^[k] d = { d with counter := BitVec.ofNat w (d.counter.toNat - k) } := by
  induction k with
  | zero => simp
  | succ k ih => rw [Function.iterate_succ_apply', ih (by omega), d.clock_ofNat_sub d.counter hk]

/-! ### The timer's gate -/

/-- A timer below its minimum period is not clocked (R106). -/
theorem timerClock_of_lt {w mp : Nat} {d : Divider w} (h : d.period.toNat < mp) : timerClock mp d = (d, false) :=
  if_pos h

/-- A timer that reaches its minimum period is a divider (R106). -/
theorem timerClock_of_le {w mp : Nat} {d : Divider w} (h : mp ≤ d.period.toNat) : timerClock mp d = d.clock :=
  if_neg (Nat.not_lt.2 h)

/-! ### The statements -/

/-- Settles O33: the countdown from the period never fires above zero, and the clock at zero reloads the period, which is
the counter it began with. -/
theorem dividerFiresEveryPeriodPlusOneClocks : Obligations.DividerFiresEveryPeriodPlusOneClocks := by
  intro w d hstart
  have hcount : ∀ k, k ≤ d.period.toNat →
      (fun e : Divider w => e.clock.1)^[k] d = { d with counter := BitVec.ofNat w (d.period.toNat - k) } :=
    hstart ▸ d.iterate_clock
  have hrestored : ({ d with counter := d.period } : Divider w) = d := congrArg (Divider.mk d.period) hstart.symm
  refine ⟨hcount, fun k hk => ?_, ?_⟩
  · rw [hcount k hk.le, d.clock_ofNat_sub d.period hk]
  · rw [hcount _ le_rfl, Divider.clock_of_zero (by simp), hrestored]

/-- Settles O34: the gate leaves the divider alone or clocks it, and the divider's clock has its two cases. -/
theorem timerBelowMinimumPeriodStandsStill : Obligations.TimerBelowMinimumPeriodStandsStill := by
  intro w mp d
  refine ⟨timerClock_of_lt, fun hmin hzero => ?_, fun hmin hne => ?_⟩
  · rw [timerClock_of_le hmin, Divider.clock_of_zero hzero]
  · rw [timerClock_of_le hmin, Divider.clock_of_ne hne, sub_one_eq _ hne]

end Sys2Proof.Machine
end

section
/-! The length counter and the linear counter (R116 to R119, R151), and the two pulse writes that load a length counter
(R203, R207): each unit's operation as one equation, and the two statements read off them. -/

namespace Sys2Proof.Machine

/-! ### A counter that stays at zero -/

/-- Counting down and staying at zero, in numbers: both counters clock this way (R119, R151). -/
theorem countDown_eq {w : Nat} (x : BitVec w) : (if x = 0 then x else x - 1) = BitVec.ofNat w (x.toNat - 1) := by
  split
  next h => simp [h]
  next h => exact sub_one_eq x h

/-! ### Length counter -/

theorem LengthCounter.clock_of_halt {l : LengthCounter} (h : l.halt = true) : l.clock = l := if_pos h

theorem LengthCounter.clock_of_not_halt {l : LengthCounter} (h : l.halt = false) :
    l.clock = { l with counter := BitVec.ofNat 8 (l.counter.toNat - 1) } := by
  rw [← countDown_eq l.counter]
  unfold LengthCounter.clock
  rw [if_neg (by simp [h])]
  split <;> rfl

/-- After `n` clocks of a counter that is not halted, with no bound on `n`: at zero it stays. -/
theorem LengthCounter.iterate_clock_of_not_halt {l : LengthCounter} (h : l.halt = false) (n : Nat) :
    LengthCounter.clock^[n] l = { l with counter := BitVec.ofNat 8 (l.counter.toNat - n) } := by
  induction n with
  | zero => simp
  | succ n ih =>
    have hlt : l.counter.toNat - n < 2 ^ 8 := by have := l.counter.isLt; omega
    rw [Function.iterate_succ_apply', ih, LengthCounter.clock_of_not_halt (by exact h), BitVec.toNat_ofNat,
      Nat.mod_eq_of_lt hlt, Nat.sub_sub]

/-! ### Linear counter -/

/-- The counting part changes the counter alone (R151). -/
theorem LinearCounter.count_eq (n : LinearCounter) :
    n.count = { n.divider with
      counter := if n.reloadPending then n.divider.period
        else BitVec.ofNat 7 (n.divider.counter.toNat - 1) } := by
  rw [← countDown_eq n.divider.counter]
  unfold LinearCounter.count
  split
  · rfl
  · split <;> rfl

/-- The pending flag after a clock: kept under `controlFlag`, cleared otherwise (R151). -/
theorem LinearCounter.clock_reloadPending (n : LinearCounter) :
    n.clock.reloadPending = if n.controlFlag then n.reloadPending else false := by
  show (n.reloadPending && n.controlFlag) = _
  cases n.controlFlag <;> simp

/-! ### The "timer-high+length-load+restart" write -/

theorem PulseSeq.phaseReset_eq (ps : Params) (q : PulseSeq) :
    q.phaseReset ps = { q with step := if ps.pulsePhaseReset then 0 else q.step } := by
  unfold PulseSeq.phaseReset
  split <;> rfl

/-- The write of R203 with its period, its length load and its step reset written out. -/
theorem Pulse.writeTimerHigh_eq (ps : Params) (p : Pulse) (lenidx : BitVec 5) (thigh : BitVec 3) :
    p.writeTimerHigh ps lenidx thigh =
      let period := BitVec.ofNat 11 (thigh.toNat * 256 + p.timer.period.toNat % 256)
      { p with
        timer := { p.timer with period := period }
        sweep := p.sweep.recompute ps.sweepOnesAdj period
        len := { p.len with counter := if p.len.enabled then lenTable.get lenidx.toFin else p.len.counter }
        env := { p.env with restartPending := true }
        seq := { p.seq with step := if ps.pulsePhaseReset then 0 else p.seq.step } } := by
  rw [← periodWithHigh_eq, ← LengthCounter.load_eq, ← PulseSeq.phaseReset_eq]
  rfl

/-! ### Events on one pulse channel -/

/-- An event on channel 1 whose effect on the channel is known. -/
theorem updatePulse_one_of_eq {f : Pulse → Pulse} {s : State} {p : Pulse} (h : f s.apu.pulse1 = p) :
    updatePulse .one f s = .next { s with answer := .nothing, apu := { s.apu with pulse1 := p } } := by
  subst h
  rfl

/-- An event on channel 2 whose effect on the channel is known. -/
theorem updatePulse_two_of_eq {f : Pulse → Pulse} {s : State} {p : Pulse} (h : f s.apu.pulse2 = p) :
    updatePulse .two f s = .next { s with answer := .nothing, apu := { s.apu with pulse2 := p } } := by
  subst h
  rfl

/-! ### The statements -/

/-- Settles O35: the table by its entries, the length counter by induction on the number of clocks, the linear counter
field by field. -/
theorem lengthAndLinearCountersLoadAndCountToZero : Obligations.LengthAndLinearCountersLoadAndCountToZero := by
  refine ⟨by decide, LengthCounter.load_eq, fun l n h => ?_, fun l n h => LengthCounter.iterate_clock_of_not_halt h n,
    fun n => ?_⟩
  · exact Function.iterate_fixed (LengthCounter.clock_of_halt h) n
  · rw [← LinearCounter.count_eq, ← LinearCounter.clock_reloadPending]
    rfl

/-- Settles O19: each of the two rows is the write of R203 on its own channel. -/
theorem pulseTimerHighWritesLoadRestartAndRecompute : Obligations.PulseTimerHighWritesLoadRestartAndRecompute := by
  intro lenidx thigh s
  constructor
  · calc exec (.w4003 lenidx thigh) s
      _ = updatePulse .one (fun p => p.writeTimerHigh s.params lenidx thigh) s := rfl
      _ = _ := updatePulse_one_of_eq (Pulse.writeTimerHigh_eq s.params s.apu.pulse1 lenidx thigh)
  · calc exec (.w4007 lenidx thigh) s
      _ = updatePulse .two (fun p => p.writeTimerHigh s.params lenidx thigh) s := rfl
      _ = _ := updatePulse_two_of_eq (Pulse.writeTimerHigh_eq s.params s.apu.pulse2 lenidx thigh)

end Sys2Proof.Machine
end

section
/-! The wave generators (R159, R163, R166) and the timer part of a CPU cycle (R191): a clock of each channel's timer as
one equation, the noise register's feedback, and the two statements read off them. -/

namespace Sys2Proof.Machine

/-! ### Timer clocks of the channels -/

/-- The pulse timer's clock, with the sequencer's modulo-8 advance written out (R159). -/
theorem Pulse.clockTimer_eq (mp : Nat) (p : Pulse) :
    p.clockTimer mp =
      { p with
        timer := (timerClock mp p.timer).1
        seq := { p.seq with step := if (timerClock mp p.timer).2 then p.seq.step + 1 else p.seq.step } } := by
  unfold Pulse.clockTimer
  cases hfire : (timerClock mp p.timer).2 with
  | false => simp [hfire]
  | true => simp [hfire, PulseSeq.clock]

/-- The triangle sequencer's gate is the two counters being non-zero (R163). -/
theorem Triangle.clockSeq_eq (t : Triangle) :
    t.clockSeq =
      { t with step := if t.lin.divider.counter ≠ 0 ∧ t.len.counter ≠ 0 then t.step + 1 else t.step } := by
  have hgate : (t.lin.nonZero && !t.len.silent) = true ↔ t.lin.divider.counter ≠ 0 ∧ t.len.counter ≠ 0 := by
    simp [LinearCounter.nonZero, LengthCounter.silent]
  unfold Triangle.clockSeq
  rw [if_congr hgate rfl rfl]
  split <;> rfl

/-- The triangle timer's clock: the step advances on a fire that passes the gate (R163). -/
theorem Triangle.clockTimer_eq (mp : Nat) (t : Triangle) :
    t.clockTimer mp =
      { t with
        timer := (timerClock mp t.timer).1
        step :=
          if (timerClock mp t.timer).2 = true ∧ t.lin.divider.counter ≠ 0 ∧ t.len.counter ≠ 0 then t.step + 1
          else t.step } := by
  unfold Triangle.clockTimer
  cases hfire : (timerClock mp t.timer).2 with
  | false => simp [hfire]
  | true => simp [hfire, Triangle.clockSeq_eq]

/-- The timer part of a CPU cycle, one field of the APU at a time (R191). -/
theorem Apu.clockTimers_eq (ps : Params) (a : Apu) :
    a.clockTimers ps =
      { a with
        triangle := a.triangle.clockTimer ps.minPeriod.triangle
        pulse1 := if a.evenCycleParity then a.pulse1.clockTimer ps.minPeriod.pulse1 else a.pulse1
        pulse2 := if a.evenCycleParity then a.pulse2.clockTimer ps.minPeriod.pulse2 else a.pulse2
        noise := if a.evenCycleParity then a.noise.clockTimer ps.minPeriod.noise else a.noise
        evenCycleParity := !a.evenCycleParity } := by
  unfold Apu.clockTimers
  cases a.evenCycleParity <;> rfl

/-! ### Noise register -/

/-- Bit 14 takes the feedback (R166). -/
theorem NoiseRegister.getLsbD_clock_top (g : NoiseRegister) :
    g.clock.shiftRegister.getLsbD 14 =
      (g.shiftRegister.getLsbD 0 ^^ g.shiftRegister.getLsbD (if g.shortMode then 6 else 1)) :=
  g.getLsbD_clock 14 (by decide)

/-- Every other bit takes the one above it (R166). -/
theorem NoiseRegister.getLsbD_clock_low (g : NoiseRegister) {i : Nat} (hi : i < 14) :
    g.clock.shiftRegister.getLsbD i = g.shiftRegister.getLsbD (i + 1) := by
  rw [g.getLsbD_clock i (by omega), if_pos hi]

/-- A register whose clock is zero was zero: its upper bits, the tap among them, are bits of the clocked register, and
the feedback then is bit 0 itself (R167). -/
theorem NoiseRegister.eq_zero_of_clock_eq_zero {g : NoiseRegister} (h : g.clock.shiftRegister = 0) :
    g.shiftRegister = 0 := by
  have hupper : ∀ i, i < 14 → g.shiftRegister.getLsbD (i + 1) = false := fun i hi => by
    simp [← g.getLsbD_clock_low hi, h]
  have htap : g.shiftRegister.getLsbD (if g.shortMode then 6 else 1) = false := by
    cases g.shortMode with
    | false => exact hupper 0 (by decide)
    | true => exact hupper 5 (by decide)
  have hzero : g.shiftRegister.getLsbD 0 = false := by
    have htop := g.getLsbD_clock_top
    rw [htap, h] at htop
    simpa using htop.symm
  refine BitVec.eq_of_getLsbD_eq fun i hi => ?_
  cases i with
  | zero => simpa using hzero
  | succ i => simpa using hupper i (by omega)

/-! ### The statements -/

/-- Settles O28: the two half-ticks are the definition's own; the timer part is each channel's clock written out. -/
theorem cpuCycleClocksSequencerThenTimers : Obligations.CpuCycleClocksSequencerThenTimers := by
  intro ps a
  calc a.cpuCycle ps = ((a.halfTick ps).halfTick ps).clockTimers ps := rfl
    _ = _ := by
      rw [Apu.clockTimers_eq, Triangle.clockTimer_eq, Pulse.clockTimer_eq, Pulse.clockTimer_eq]
      rfl

/-- Settles O40: the bits of a clocked register, and no non-zero register clocks to zero. -/
theorem noiseRegisterShiftsAndStaysNonZero : Obligations.NoiseRegisterShiftsAndStaysNonZero := fun g =>
  ⟨rfl, g.getLsbD_clock_top, fun _ hi => g.getLsbD_clock_low hi,
    mt NoiseRegister.eq_zero_of_clock_eq_zero⟩

end Sys2Proof.Machine
end

section
/-! The frame sequencer's tick (R177) and the two events that only acknowledge its latch (R182, R215): the counts of a
schedule are distinct, so the entry the tick finds is any entry with the new count; the status value as a sum of its four
bits; and the two statements read off them. -/

namespace Sys2Proof.Machine

/-! ### At most one entry matches -/

/-- The counts of both schedules rise strictly; `FS4` is checked entry by entry, its last entry raising the interrupt that
the condition on `FS5` forbids (R175, R176). -/
theorem scheduleOf_pairwise {ps : Params} (h : paramsOk ps = true) (c : StepCount) :
    (scheduleOf ps c).Pairwise (fun e f => e.count < f.count) := by
  cases c with
  | four => show fs4.Pairwise _; decide
  | five =>
    simp only [paramsOk, Bool.and_eq_true] at h
    exact scheduleOk_pairwise h.2

/-- Entries of one schedule with the same count are the same entry (R177). -/
theorem eq_of_mem_scheduleOf_of_count_eq {ps : Params} (h : paramsOk ps = true) {c : StepCount} {e f : ScheduleEntry}
    (he : e ∈ scheduleOf ps c) (hf : f ∈ scheduleOf ps c) (hcount : e.count = f.count) : e = f := by
  have hnodup : ((scheduleOf ps c).map ScheduleEntry.count).Nodup :=
    List.pairwise_map.2 ((scheduleOf_pairwise h c).imp Nat.ne_of_lt)
  exact List.inj_on_of_nodup_map hnodup he hf hcount

theorem scheduleOf_eq_ite (ps : Params) (c : StepCount) : scheduleOf ps c = if c = .four then fs4 else ps.fs5 := by
  cases c <;> rfl

/-! ### The tick -/

/-- The pulses of an entry neither read nor write the sequencer's own fields (R180, R181). -/
theorem Apu.atEntry_withFs (adj : OnesAdj) (a : Apu) (f : FrameSequencer) (e : ScheduleEntry) :
    Apu.atEntry adj { a with fs := f } e =
      let q := if e.quarter then a.quarterFrame else a
      { (if e.half then q.halfFrame adj else q) with fs := f.atEntry e } := by
  unfold Apu.atEntry
  cases e.quarter <;> cases e.half <;> rfl

theorem Apu.halfTick_of_no_entry {ps : Params} {a : Apu}
    (h : ∀ e ∈ scheduleOf ps a.fs.stepCount, e.count ≠ a.fs.cpuCycleCounter + 1) :
    a.halfTick ps = { a with fs := { a.fs with cpuCycleCounter := a.fs.cpuCycleCounter + 1 } } := by
  rcases a.halfTick_cases ps with ⟨-, htick⟩ | ⟨e, he, hcount, -⟩
  · exact htick
  · exact absurd hcount (h e he)

theorem Apu.halfTick_of_entry {ps : Params} (h : paramsOk ps = true) {a : Apu} {e : ScheduleEntry}
    (he : e ∈ scheduleOf ps a.fs.stepCount) (hcount : e.count = a.fs.cpuCycleCounter + 1) :
    a.halfTick ps =
      Apu.atEntry ps.sweepOnesAdj { a with fs := { a.fs with cpuCycleCounter := a.fs.cpuCycleCounter + 1 } } e := by
  rcases a.halfTick_cases ps with ⟨hnone, -⟩ | ⟨f, hf, hcount', htick⟩
  · exact absurd (beq_iff_eq.2 hcount) (List.find?_eq_none.1 hnone e he)
  · rw [htick, eq_of_mem_scheduleOf_of_count_eq h hf he (hcount'.trans hcount.symm)]

/-! ### The status value -/

/-- A channel's bit of the status value, as a number (R215). -/
def LengthCounter.statusBit (l : LengthCounter) : Nat := if 0 < l.counter.toNat then 1 else 0

theorem LengthCounter.toNat_bit_not_silent (l : LengthCounter) : (bit (!l.silent)).toNat = l.statusBit := by
  have hsilent : l.silent = true ↔ l.counter.toNat = 0 := by simp [LengthCounter.silent, BitVec.toNat_eq]
  unfold LengthCounter.statusBit
  cases h : l.silent with
  | true => simp [hsilent.1 h]
  | false => simp [Nat.pos_of_ne_zero (mt hsilent.2 (by simp [h]))]

theorem LengthCounter.statusBit_le_one (l : LengthCounter) : l.statusBit ≤ 1 := by
  unfold LengthCounter.statusBit
  split <;> decide

/-- The status value is the sum of its bits (R215). -/
theorem statusValue_eq (a : Apu) :
    statusValue a = BitVec.ofNat 8 (a.pulse1.len.statusBit + 2 * a.pulse2.len.statusBit
      + 4 * a.triangle.len.statusBit + 8 * a.noise.len.statusBit) := by
  have h1 := a.pulse1.len.statusBit_le_one
  have h2 := a.pulse2.len.statusBit_le_one
  have h3 := a.triangle.len.statusBit_le_one
  have h4 := a.noise.len.statusBit_le_one
  apply BitVec.eq_of_toNat_eq
  unfold statusValue
  simp only [toNat_append, LengthCounter.toNat_bit_not_silent, BitVec.toNat_ofNat]
  omega

/-! ### The statements -/

/-- Settles O29: the tick acts on the one entry with the new count, or only counts. -/
theorem halfTickFollowsTheSchedule : Obligations.HalfTickFollowsTheSchedule := by
  intro ps a hps c schedule
  have hschedule : schedule = scheduleOf ps a.fs.stepCount := (scheduleOf_eq_ite ps a.fs.stepCount).symm
  rw [hschedule]
  refine ⟨Apu.halfTick_of_no_entry, fun e he hcount => ?_⟩
  rw [Apu.halfTick_of_entry hps he hcount, Apu.atEntry_withFs, FrameSequencer.atEntry_eq]

/-- Settles O24: both events clear the latch and nothing else; the value read is the sum of the four bits. -/
theorem statusReadAndAcknowledgeClearTheFrameFlag : Obligations.StatusReadAndAcknowledgeClearTheFrameFlag := by
  intro s
  constructor
  · calc exec .r4015 s
      _ = finish (.status (statusValue s.apu)) (s.withApu { s.apu with fs := s.apu.fs.clearIrq }) := rfl
      _ = _ := by rw [statusValue_eq]; rfl
  · rfl

end Sys2Proof.Machine
end

section
/-! The APU register writes that no section above settles (R200 to R202, R204 to R206, R208 to R214, R216): a write of the
low half of a period, the enable mask as a sum of its four bits, the frame control write, and the statements read off
them. -/

namespace Sys2Proof.Machine

/-! ### Register writes of one channel -/

/-- The write of R202 with its period written out. -/
theorem Pulse.writeTimerLow_eq (adj : OnesAdj) (p : Pulse) (tlow : Byte) :
    p.writeTimerLow adj tlow =
      let period := BitVec.ofNat 11 (p.timer.period.toNat / 256 * 256 + tlow.toNat)
      { p with
        timer := { p.timer with period := period }
        sweep := p.sweep.recompute adj period } := by
  rw [← periodWithLow_eq]
  rfl

/-! ### The enable write -/

/-- Bit `i` of the mask is channel `i` (R212). -/
theorem enableMask_eq (noise triangle pulse2 pulse1 : Bool) :
    bit noise ++ bit triangle ++ bit pulse2 ++ bit pulse1 =
      BitVec.ofNat 4 (pulse1.toNat + 2 * pulse2.toNat + 4 * triangle.toNat + 8 * noise.toNat) := by
  have h1 := pulse1.toNat_le
  have h2 := pulse2.toNat_le
  have h3 := triangle.toNat_le
  have h4 := noise.toNat_le
  apply BitVec.eq_of_toNat_eq
  simp only [toNat_append, BitVec.toNat_ofBool, BitVec.toNat_ofNat]
  omega

/-! ### The frame control write -/

/-- Inhibiting clears a set latch; otherwise the latch is kept (R179). -/
theorem FrameSequencer.writeControl_eq (fs : FrameSequencer) (mode inhibit : Bool) :
    fs.writeControl mode inhibit =
      { cpuCycleCounter := 0
        stepCount := if mode then .five else .four
        interruptInhibited := inhibit
        interruptFlag := if inhibit then false else fs.interruptFlag } := by
  unfold FrameSequencer.writeControl
  cases inhibit <;> simp

/-! ### The statements -/

/-- Settles O16: each of the two rows is the write of R200 on its own channel, whose fields the definition writes out. -/
theorem dutyWritesSetDutyHaltLoopAndLevel : Obligations.DutyWritesSetDutyHaltLoopAndLevel :=
  fun _ _ _ _ _ => ⟨rfl, rfl⟩

/-- Settles O17: each of the two rows is the write of R201 on its own channel, which calls no recompute. -/
theorem sweepWritesArmTheReloadAndRecomputeNothing : Obligations.SweepWritesArmTheReloadAndRecomputeNothing :=
  fun _ _ _ _ _ => ⟨rfl, rfl⟩

/-- Settles O18: each of the two rows is the write of R202 on its own channel. -/
theorem pulseTimerLowWritesKeepTheHighBitsAndRecompute :
    Obligations.PulseTimerLowWritesKeepTheHighBitsAndRecompute := by
  intro tlow s
  constructor
  · calc exec (.w4002 tlow) s
      _ = updatePulse .one (fun p => p.writeTimerLow s.params.sweepOnesAdj tlow) s := rfl
      _ = _ := updatePulse_one_of_eq (s.apu.pulse1.writeTimerLow_eq s.params.sweepOnesAdj tlow)
  · calc exec (.w4006 tlow) s
      _ = updatePulse .two (fun p => p.writeTimerLow s.params.sweepOnesAdj tlow) s := rfl
      _ = _ := updatePulse_two_of_eq (s.apu.pulse2.writeTimerLow_eq s.params.sweepOnesAdj tlow)

/-- Settles O20: the linear counter's setup is the definition's own; the two halves of the period and the length load are
the arithmetic forms of the operations. -/
theorem triangleWritesSetLinearCounterAndPeriod : Obligations.TriangleWritesSetLinearCounterAndPeriod := by
  intro control reload tlow lenidx thigh s t
  refine ⟨rfl, ?_, ?_⟩
  · rw [← periodWithLow_eq]
    rfl
  · rw [← periodWithHigh_eq, ← LengthCounter.load_eq]
    rfl

/-- Settles O21: the envelope, mode and period writes are the definition's own; the length load is lost while
disabled. -/
theorem noiseWritesSetEnvelopePeriodAndLength : Obligations.NoiseWritesSetEnvelopePeriodAndLength := by
  intro haltloop const level mode pidx lenidx s n
  refine ⟨rfl, rfl, ?_⟩
  rw [← LengthCounter.load_eq]
  rfl

/-- Settles O23: the four enable flags are the definition's own; the mask is the sum of its bits. -/
theorem enableWriteSetsFlagsAndZeroesDisabledCounters :
    Obligations.EnableWriteSetsFlagsAndZeroesDisabledCounters := by
  intro noise triangle pulse2 pulse1 s setEnabled
  rw [← enableMask_eq]
  rfl

/-- Settles O25: the sequencer's own fields after the write, then the two pulses of mode 1. -/
theorem frameControlWriteSelectsZeroesAndPulses : Obligations.FrameControlWriteSelectsZeroesAndPulses := by
  intro mode inhibit s written
  calc exec (.w4017 mode inhibit) s
    _ = finish .nothing (s.withApu (s.apu.writeControl s.params mode inhibit)) := rfl
    _ = _ := by
      unfold Apu.writeControl
      rw [FrameSequencer.writeControl_eq]
      rfl

end Sys2Proof.Machine
end

section
/-! The channel outputs (R226 to R229): the triangle's ramp as a number, each channel's gate as one condition, and the
statement read off them. -/

namespace Sys2Proof.Machine

/-! ### The triangle's ramp -/

/-- The ramp falls from 15 to 0 and rises again, without wrapping (R162). -/
theorem toNat_triTable (step : BitVec 5) :
    (triTable step).toNat = if step.toNat ≤ 15 then 15 - step.toNat else step.toNat - 16 := by
  have := step.isLt
  unfold triTable
  split <;> rw [BitVec.toNat_ofNat] <;> omega

/-! ### The gates -/

theorem LengthCounter.silent_eq_true {l : LengthCounter} : l.silent = true ↔ l.counter = 0 := decide_eq_true_iff

/-- The three conditions under which a pulse is heard (R226, R227). -/
theorem Pulse.output_eq (ps : Params) (p : Pulse) :
    p.output ps =
      if p.sweep.silenced = false ∧ p.len.counter ≠ 0 ∧ p.seq.value ps = true then p.env.volume else 0 := by
  simp only [Pulse.output, LengthCounter.silent_eq_true, ← Bool.not_eq_true, ne_eq, ite_and, ite_not]

/-- Only the length counter silences the triangle (R228). -/
theorem Triangle.toNat_output (t : Triangle) :
    t.output.toNat = if t.len.counter = 0 then 0 else (triTable t.step).toNat := by
  unfold Triangle.output
  rw [if_congr LengthCounter.silent_eq_true rfl rfl, apply_ite BitVec.toNat]
  rfl

/-- The two conditions under which noise is heard (R229). -/
theorem Noise.output_eq (n : Noise) :
    n.output = if n.len.counter ≠ 0 ∧ n.lfsr.silent = false then n.env.volume else 0 := by
  simp only [Noise.output, LengthCounter.silent_eq_true, ← Bool.not_eq_true, ne_eq, ite_and, ite_not]

/-! ### The statement -/

/-- Settles O41: each channel's output is its amplitude behind its gate. -/
theorem channelOutputsAreGated : Obligations.ChannelOutputsAreGated := by
  refine ⟨Pulse.output_eq, fun t => ?_, Noise.output_eq⟩
  rw [Triangle.toNat_output, toNat_triTable]

end Sys2Proof.Machine
end

section
/-! The rows of mappers 0, 2, 3, 7, 66 and 140 (R250 to R264): what a bank write and a storage read do on a variant that
has the row, the offsets of these mappers written out, and the three statements read off them. -/

namespace Sys2Proof.Machine

/-! ### A row on a variant that has it -/

theorem writeBank_of_mapper {k : Mapper} {s : State} (h : s.mapper = k) (m : MapState) :
    writeBank [k] m s = .next { s with answer := .handled, map := m } :=
  writeBank_eq_next.2 ⟨List.mem_singleton.2 h, rfl⟩

theorem State.withMap_of_map {s : State} {m : MapState} (h : s.map = m) : s.withMap m = s := by
  subst h
  rfl

/-- A program read, with the row's variant and the offset read off the mapper state `m`. -/
theorem readProgram_of_map {ms : List Mapper} {a : CpuAddr} {s : State} {m : MapState} {o : Nat} (hmap : s.map = m)
    (hms : (s.withMap m).mapper ∈ ms) (ho : programOffset (s.withMap m) a = o) :
    readProgram ms a s = .next { s with answer := .read .prg o (s.byteAt .prg o) } := by
  rw [State.withMap_of_map hmap] at hms ho
  exact readProgram_eq_next.2 ⟨hms, ho ▸ rfl⟩

/-- A pattern-table read, with the row's variant and the offset read off the mapper state `m`. -/
theorem readPattern_of_map {ms : List Mapper} {a : PpuAddr} {s : State} {m : MapState} {o : Nat} (hmap : s.map = m)
    (hms : (s.withMap m).mapper ∈ ms) (ho : patternOffset (s.withMap m) a = o) :
    readPattern ms a s = .next { s with answer := .read .chr o (s.byteAt .chr o) } := by
  rw [State.withMap_of_map hmap] at hms ho
  exact readPattern_eq_next.2 ⟨hms, ho ▸ rfl⟩

/-! ### The offsets -/

/-- Bank 0 adds nothing to the address (R250, R256). -/
theorem fixedPrgOffset_eq (c : Cartridge) (a : CpuAddr) :
    fixedPrgOffset c a = a.toNat % 0x8000 % (c.prgChunks * 16384) := by
  show (0 * 0x8000 + a.toNat % 0x8000) % (c.prgChunks * 16384) = _
  rw [Nat.zero_mul, Nat.zero_add]

/-- The window of R253 selects the bank, not the rest of the composition. -/
theorem m2PrgOffset_eq (c : Cartridge) (bank : BitVec 4) (a : CpuAddr) :
    m2PrgOffset c bank a =
      ((if a.toNat < 0xC000 then bank.toNat else c.prgChunks - 1) * 0x4000 + a.toNat % 0x4000)
        % (c.prgChunks * 16384) := by
  have hwindow : a < 0xC000#16 ↔ a.toNat < 0xC000 := Iff.rfl
  unfold m2PrgOffset
  simp only [hwindow]
  split <;> rfl

/-- The whole pattern table is one bank (R243). -/
theorem chrOffset_of_lt (c : Cartridge) (bank : Nat) {a : PpuAddr} (h : a.toNat < 0x2000) :
    chrOffset c bank 0x2000 a = (bank * 0x2000 + a.toNat) % chrSize c := by
  rw [chrOffset, bankOffset, Nat.mod_eq_of_lt h]

theorem fixedChrOffset_of_lt (c : Cartridge) {a : PpuAddr} (h : a.toNat < 0x2000) :
    fixedChrOffset c a = a.toNat % chrSize c := by
  rw [fixedChrOffset, chrOffset_of_lt c 0 h, Nat.zero_mul, Nat.zero_add]

/-! ### The statements -/

/-- Settles O52: each row is the bank write of its own variant. -/
theorem simpleMapperBankWrites : Obligations.SimpleMapperBankWrites := fun _ =>
  ⟨fun _ h => writeBank_of_mapper h _, fun _ h => writeBank_of_mapper h _, fun _ _ h => writeBank_of_mapper h _,
    fun _ _ h => writeBank_of_mapper h _, fun _ _ h => writeBank_of_mapper h _⟩

/-- Settles O53: each row reads at the program offset of its own variant; the row of R262 stands for two variants. -/
theorem simpleMapperProgramReads : Obligations.SimpleMapperProgramReads := by
  intro s a size reads
  refine ⟨fun h => ?_, fun bank h => ?_, fun _ h => ?_, fun _ h => ?_, fun _ h => ?_⟩
  · exact readProgram_of_map h (.head _) (fixedPrgOffset_eq s.cart a)
  · exact readProgram_of_map h (.head _) (m2PrgOffset_eq s.cart bank a)
  · exact readProgram_of_map h (.head _) (fixedPrgOffset_eq s.cart a)
  · exact readProgram_of_map h (.head _) rfl
  · rcases h with h66 | h140
    · exact readProgram_of_map h66 (.head _) rfl
    · exact readProgram_of_map h140 (.tail _ (.head _)) rfl

/-- Settles O54: each row reads at the pattern offset of its own variant; the row of R263 stands for two variants. -/
theorem simpleMapperPatternReads : Obligations.SimpleMapperPatternReads := by
  intro s a ha reads
  refine ⟨fun h => ?_, fun _ h => ?_, fun bank h => ?_, fun _ h => ?_, fun m h => ?_⟩
  · exact readPattern_of_map h (.head _) (fixedChrOffset_of_lt s.cart ha)
  · exact readPattern_of_map h (.head _) (fixedChrOffset_of_lt s.cart ha)
  · exact readPattern_of_map h (.head _) (chrOffset_of_lt s.cart bank.toNat ha)
  · exact readPattern_of_map h (.head _) (fixedChrOffset_of_lt s.cart ha)
  · have offset := chrOffset_of_lt s.cart m.chrBank.toNat ha
    rcases h with h66 | h140
    · exact readPattern_of_map h66 (.head _) offset
    · exact readPattern_of_map h140 (.tail _ (.head _)) offset

end Sys2Proof.Machine
end

section
/-! Instantiation (R336) and the host's access to the save memory (R240): images that are cut to a storage's size, the
block an instantiation gives, the invariant at the reset values, and the two statements read off them. -/

namespace Sys2Proof.Machine

/-! ### Images cut to a size -/

theorem Memory.within_ofBytes_take (size : Nat) (image : List Byte) :
    (Memory.ofBytes 0 (image.take size)).within size = true :=
  Memory.within_ofBytes 0 _ ((Nat.zero_add _).trans_le (List.length_take_le size image))

/-- Inside the size the cut image reads as the image. -/
theorem Memory.read?_ofBytes_take {size o : Nat} {image : List Byte} {b : Byte} (hb : image[o]? = some b)
    (ho : o < size) : (Memory.ofBytes 0 (image.take size)).read? o = some b := by
  have htake : (image.take size)[o]? = some b := (List.getElem?_take_of_lt ho).trans hb
  obtain ⟨hlt, rfl⟩ := List.getElem?_eq_some_iff.1 htake
  simpa using Memory.read?_ofBytes 0 (image.take size) o hlt

/-- A storage holds the byte it lists. -/
theorem State.byteAt_of_read? {s : State} {sp : Space} {o : Nat} {b : Byte} (h : (s.memory sp).read? o = some b) :
    s.byteAt sp o = b := by
  rw [State.byteAt, h, Option.getD_some]

theorem chrSize_eq (c : Cartridge) : chrSize c = if c.chrChunks = 0 then 8192 else c.chrChunks * 8192 :=
  if_congr chrIsRam_eq_true rfl rfl

/-! ### The mapper of a number (R244) -/

theorem mapperOfNumber_eq_some {n : Nat} {m : Mapper} : mapperOfNumber n = some m ↔
    (n, m) ∈ [(0, Mapper.m0), (1, .m1), (2, .m2), (3, .m3), (4, .m4), (7, .m7), (66, .m66), (140, .m140)] := by
  constructor
  · intro h
    unfold mapperOfNumber at h
    split_ifs at h <;> cases h <;> simp [*]
  · intro h
    fin_cases h <;> rfl

theorem mapperOfNumber_eq_none {n : Nat} : mapperOfNumber n = none ↔ n ∉ [0, 1, 2, 3, 4, 7, 66, 140] := by
  simp [Option.eq_none_iff_forall_ne_some, mapperOfNumber_eq_some, forall_and]

theorem hasSram_of_mem {m : Mapper} (h : m ∈ [Mapper.m1, .m4]) : m.hasSram = true := by
  fin_cases h <;> rfl

/-! ### The block an instantiation gives -/

/-- The block with the variant `m`: every field at its reset value, the storages holding what the host supplies. -/
def freshBlock (m : Mapper) (ps : Params) (c : Cartridge) (prg chr sram : List Byte) : State where
  params := ps
  cart := c
  apu := apuReset ps
  map := mapReset m
  prg := Memory.ofBytes 0 (prg.take (prgSize c))
  chr := Memory.ofBytes 0 (chr.take (chrSize c))
  sram := if m.hasSram then Memory.ofBytes 0 (sram.take sramSize) else []
  events := []
  answer := .nothing

theorem cartridgeOk_eq_false {c : Cartridge} : cartridgeOk c = false ↔ c.prgChunks = 0 := by
  simp [cartridgeOk]

section Instantiate

variable {n : Nat} {m : Mapper} {ps : Params} {c : Cartridge} {prg chr sram : List Byte} {s : State}

theorem instantiate_of_none (h : mapperOfNumber n = none) :
    instantiate n ps c prg chr sram = .error .unsupportedMapper := by
  simp only [instantiate, h]

theorem instantiate_of_some (h : mapperOfNumber n = some m) : instantiate n ps c prg chr sram =
    if cartridgeOk c then .ok (freshBlock m ps c prg chr sram) else .error .unsupportedMapper := by
  simp only [instantiate, h, freshBlock]

/-- The one refusal: a number that is not implemented, or no program chunk (R336). -/
theorem instantiate_eq_error : instantiate n ps c prg chr sram = .error .unsupportedMapper ↔
    n ∉ [0, 1, 2, 3, 4, 7, 66, 140] ∨ c.prgChunks = 0 := by
  rw [← mapperOfNumber_eq_none, ← cartridgeOk_eq_false]
  cases hm : mapperOfNumber n with
  | none => simp [instantiate_of_none hm]
  | some m => cases hc : cartridgeOk c <;> simp [instantiate_of_some hm, hc]

theorem instantiate_eq_ok : instantiate n ps c prg chr sram = .ok s ↔
    ∃ m, mapperOfNumber n = some m ∧ cartridgeOk c = true ∧ s = freshBlock m ps c prg chr sram := by
  cases hm : mapperOfNumber n with
  | none => simp [instantiate_of_none hm]
  | some m => cases hc : cartridgeOk c <;> simp [instantiate_of_some hm, hc, eq_comm]

end Instantiate

/-! ### The invariant at the reset values -/

theorem lenReset_ok : lenReset.ok := ⟨by decide, fun _ => rfl⟩

theorem pulseReset_ok (b : Bool) : (pulseReset b).ok b := ⟨lenReset_ok, rfl, rfl⟩

theorem fsReset_ok (ps : Params) : fsReset.ok ps := ⟨.inr (show 0 < scheduleEnd fs4 by decide), rfl⟩

theorem apuReset_ok {ps : Params} (h : paramsOk ps = true) : (apuReset ps).Ok ps where
  phase := by
    simp only [paramsOk, Bool.and_eq_true, decide_eq_true_eq] at h
    exact h.1.1
  fs := fsReset_ok ps
  pulse1 := pulseReset_ok true
  pulse2 := pulseReset_ok false
  triangle := lenReset_ok
  noise := ⟨lenReset_ok, rfl⟩
  lfsr := show (1 : BitVec 15) ≠ 0 by decide
  mask := show (0#4) = bit false ++ bit false ++ bit false ++ bit false by decide

theorem mapReset_ok (m : Mapper) : (mapReset m).ok := by
  cases m with
  | m1 => exact show (0b10000 : BitVec 5) ≠ 0 by decide
  | m0 | m2 | m3 | m4 | m7 | m66 | m140 => trivial

/-! ### The fresh block -/

section FreshBlock

variable (m : Mapper) (ps : Params) (c : Cartridge) (prg chr sram : List Byte)

@[simp] theorem freshBlock_mapper : (freshBlock m ps c prg chr sram).mapper = m := by
  cases m <;> rfl

/-- The registers are already at their reset values (R350, R351, R352). -/
theorem freshBlock_resetEvent : (freshBlock m ps c prg chr sram).resetEvent = freshBlock m ps c prg chr sram := by
  rw [State.resetEvent, freshBlock_mapper]
  rfl

theorem exec_reset_freshBlock :
    exec .reset (freshBlock m ps c prg chr sram) = .next (freshBlock m ps c prg chr sram) := by
  show finish .nothing (freshBlock m ps c prg chr sram).resetEvent = _
  rw [freshBlock_resetEvent]
  rfl

/-- A variant without save memory is given the empty image. -/
theorem freshBlock_sram : (freshBlock m ps c prg chr sram).sram =
    Memory.ofBytes 0 ((if m.hasSram then sram else []).take sramSize) := by
  unfold freshBlock
  split <;> rfl

theorem freshBlock_sram_of_hasSram (h : m.hasSram = true) :
    (freshBlock m ps c prg chr sram).sram = Memory.ofBytes 0 (sram.take sramSize) := if_pos h

theorem freshBlock_sram_of_not_hasSram (h : m.hasSram = false) : (freshBlock m ps c prg chr sram).sram = [] :=
  if_neg (by simp [h])

theorem freshBlock_storageOk : (freshBlock m ps c prg chr sram).StorageOk where
  prgForm := Memory.wf_ofBytes 0 _
  chrForm := Memory.wf_ofBytes 0 _
  sramForm := by
    rw [freshBlock_sram]
    exact Memory.wf_ofBytes 0 _
  prgSize := Memory.within_ofBytes_take _ prg
  chrSize := Memory.within_ofBytes_take _ chr
  sramSize := by
    rw [freshBlock_sram]
    exact Memory.within_ofBytes_take _ _
  noSram h := freshBlock_sram_of_not_hasSram m ps c prg chr sram (by rwa [freshBlock_mapper] at h)

theorem freshBlock_inv (hc : cartridgeOk c = true) (hps : paramsOk ps = true) :
    (freshBlock m ps c prg chr sram).Inv where
  supported := show (cartridgeOk c && paramsOk ps) = true by rw [hc, hps]; rfl
  apu := apuReset_ok hps
  map := mapReset_ok m
  storage := freshBlock_storageOk m ps c prg chr sram

end FreshBlock

/-! ### The host's access to the save memory -/

theorem setSRam_of_hasSram {s : State} (h : s.mapper.hasSram = true) (image : List Byte) :
    setSRam image s = s.withSram (Memory.ofBytes 0 (image.take sramSize)) := if_pos h

theorem getSRam_of_hasSram {s : State} (h : s.mapper.hasSram = true) :
    getSRam s = some ((List.range sramSize).map (s.byteAt .sram)) := if_pos h

/-- An image of the save memory's size reads back whole. -/
theorem map_byteAt_withSram_image {image : List Byte} (s : State) (hlen : image.length = sramSize) :
    (List.range sramSize).map ((s.withSram (Memory.ofBytes 0 (image.take sramSize))).byteAt .sram) = image := by
  refine List.ext_getElem (by simp [hlen]) fun o _ ho => ?_
  rw [List.getElem_map, List.getElem_range]
  exact State.byteAt_of_read? (Memory.read?_ofBytes_take (List.getElem?_eq_getElem ho) (hlen ▸ ho))

/-- The save memory may be replaced by any contents in canonical form that fit, on a variant that has it. -/
theorem State.Inv.withSram {s : State} (hs : s.Inv) (hsram : s.mapper.hasSram = true) {mem : Memory}
    (form : mem.wf = true) (size : mem.within sramSize = true) : (s.withSram mem).Inv where
  supported := hs.supported
  apu := hs.apu
  map := hs.map
  storage := { hs.storage with
    sramForm := form
    sramSize := size
    noSram := fun hno => absurd (hsram.symm.trans hno) (by decide) }

/-! ### The statements -/

/-- Settles O59: an instantiation that is not refused gives the fresh block of its number's variant. -/
theorem instantiationRefusesExactlyUnsupportedCartridges :
    Obligations.InstantiationRefusesExactlyUnsupportedCartridges := by
  intro n ps c prg chr sram
  refine ⟨instantiate_eq_error, fun s hs => ?_⟩
  obtain ⟨m, hm, hc, rfl⟩ := instantiate_eq_ok.1 hs
  rw [freshBlock_mapper]
  refine ⟨mapperOfNumber_eq_some.1 hm, rfl, rfl, rfl, rfl, rfl, exec_reset_freshBlock m ps c prg chr sram,
    ?prgBytes, ?chrBytes, ?sramBytes, freshBlock_inv m ps c prg chr sram hc⟩
  case prgBytes => exact fun o b hb ho => State.byteAt_of_read? (Memory.read?_ofBytes_take hb ho)
  case chrBytes =>
    intro o b hb ho
    rw [← chrSize_eq] at ho
    exact State.byteAt_of_read? (Memory.read?_ofBytes_take hb ho)
  case sramBytes =>
    intro hmem o b hb ho
    apply State.byteAt_of_read?
    show (freshBlock m ps c prg chr sram).sram.read? o = some b
    rw [freshBlock_sram_of_hasSram (h := hasSram_of_mem hmem)]
    exact Memory.read?_ofBytes_take hb ho

/-- Settles O60: the image replaces the save memory and nothing else, and reads back byte by byte. -/
theorem saveMemoryImageRoundTrips : Obligations.SaveMemoryImageRoundTrips := by
  intro s image hlen hsram
  rw [setSRam_of_hasSram hsram]
  refine ⟨?_, rfl, fun hs => hs.withSram hsram (Memory.wf_ofBytes 0 _) (Memory.within_ofBytes_take _ image)⟩
  have hsram' : (s.withSram (Memory.ofBytes 0 (image.take sramSize))).mapper.hasSram = true := by
    rwa [State.withSram_mapper]
  rw [getSRam_of_hasSram hsram', map_byteAt_withSram_image s hlen]

end Sys2Proof.Machine
end

section
/-! Mappers 1 and 4 (R280 to R308) and the observation `MirrorMode` (R246): the fields of mapper 1's control register as
numbers, its two offsets written out, a register write of mapper 4, its scanline counter as one record, what the other
variants do with mapper 4's two events, and the statements read off them. -/

namespace Sys2Proof.Machine

/-! ### Mapper 1's control register (R281) -/

theorem Mmc1.toNat_mirror (m : Mmc1) : m.mirror.toNat = m.control.toNat % 4 :=
  BitVec.extractLsb'_toNat 0 2 m.control

theorem Mmc1.toNat_prgMode (m : Mmc1) : m.prgMode.toNat = m.control.toNat / 4 % 4 := by
  rw [Mmc1.prgMode, BitVec.extractLsb'_toNat, Nat.shiftRight_eq_div_pow]

/-- `chrMode` is the register's top bit. -/
theorem Mmc1.chrMode_eq_false {m : Mmc1} : m.chrMode = false ↔ m.control.toNat / 16 = 0 := by
  have hlt := m.control.isLt
  rw [Mmc1.chrMode, ← BitVec.msb_eq_getLsbD_last, BitVec.msb_eq_decide, decide_eq_false_iff_not]
  omega

/-! ### Mapper 1's offsets -/

/-- The three program banking modes: one 32 KiB bank, the low half fixed, the high half fixed (R284). -/
theorem m1PrgOffset_eq (c : Cartridge) (m : Mmc1) (a : CpuAddr) :
    m1PrgOffset c m a =
      (if m.control.toNat / 4 % 4 ≤ 1 then m.prgBank.toNat / 2 * 0x8000 + a.toNat % 0x8000
       else if m.control.toNat / 4 % 4 = 2 then
         (if a.toNat < 0xC000 then 0 else m.prgBank.toNat * 0x4000) + a.toNat % 0x4000
       else (if a.toNat < 0xC000 then m.prgBank.toNat else c.prgChunks - 1) * 0x4000 + a.toNat % 0x4000)
      % (c.prgChunks * 16384) := by
  have hwindow : a < 0xC000#16 ↔ a.toNat < 0xC000 := Iff.rfl
  have hwhole : (m.prgMode = 0#2 || m.prgMode = 1#2) = true ↔ m.prgMode.toNat ≤ 1 := by
    generalize m.prgMode = mode
    revert mode
    decide
  have hlowFixed : m.prgMode = 2#2 ↔ m.prgMode.toNat = 2 := BitVec.toNat_eq
  unfold m1PrgOffset
  simp only [hwhole, hlowFixed, hwindow, m.toNat_prgMode]
  split_ifs <;> rfl

/-- The two graphics banking modes: one 8 KiB bank, two 4 KiB banks (R285). -/
theorem m1ChrOffset_eq (c : Cartridge) (m : Mmc1) (a : PpuAddr) :
    m1ChrOffset c m a =
      (if m.control.toNat / 16 = 0 then m.chrBank0.toNat / 2 * 0x2000 + a.toNat % 0x2000
       else (if a.toNat < 0x1000 then m.chrBank0.toNat else m.chrBank1.toNat) * 0x1000 + a.toNat % 0x1000)
      % chrSize c := by
  have hwindow : a < 0x1000#14 ↔ a.toNat < 0x1000 := Iff.rfl
  unfold m1ChrOffset
  simp only [← Mmc1.chrMode_eq_false, hwindow]
  cases m.chrMode
  · rfl
  · simp only [↓reduceIte, Bool.true_eq_false]
    split <;> rfl

/-! ### Mirroring -/

/-- The table of R286. -/
theorem m1MirrorMode_eq (m : Mmc1) :
    m1MirrorMode m = [MirrorMode.oneScreenLo, .oneScreenHi, .vertical].getD (m.control.toNat % 4) .horizontal := by
  rw [← m.toNat_mirror, m1MirrorMode]
  generalize m.mirror = code
  revert code
  decide

theorem hwMirrorMode_eq (c : Cartridge) :
    hwMirrorMode c = if c.hwMirror = .horizontal then .horizontal else .vertical := by
  unfold hwMirrorMode
  cases c.hwMirror <;> rfl

/-- The variants with no mirroring register follow the cartridge's wiring (R246). -/
theorem State.mirrorMode_of_mem {s : State} (h : s.mapper ∈ [Mapper.m0, .m2, .m3, .m66, .m140]) :
    s.mirrorMode = hwMirrorMode s.cart := by
  unfold State.mapper at h
  unfold State.mirrorMode
  cases hmap : s.map with
  | m0 | m2 | m3 | m66 | m140 => rfl
  | m1 | m4 | m7 => simp [hmap] at h

/-! ### Mapper 4 -/

theorem updateM4_of_map {s : State} {m : Mmc3} (h : s.map = .m4 m) (f : Mmc3 → Mmc3) :
    updateM4 f s = .next { s with answer := .handled, map := .m4 (f m) } :=
  updateM4_eq_next.2 ⟨m, h, rfl⟩

/-- Raising the latch under a condition is a disjunction. -/
theorem Mmc3.ite_raiseIrq (m : Mmc3) (b : Bool) :
    (if b then m.raiseIrq else m) = { m with irqPending := m.irqPending || b } := by
  cases b
  · simp
  · simp [Mmc3.raiseIrq]

/-- The three cases of R307, the interrupt latch of each written as a disjunction. -/
theorem Mmc3.countScanline_eq (ps : Params) (m : Mmc3) :
    m.countScanline ps =
      if m.reloadPending then
        { m with
          irqCounter := m.irqReloadValue
          reloadPending := false
          irqPending := m.irqPending ||
            (decide (m.irqReloadValue = 0) && (m.irqEnabled || !ps.m4ZeroReloadNeedsEnable)) }
      else if m.irqCounter = 0 then
        { m with irqCounter := m.irqReloadValue, irqPending := m.irqPending || m.irqEnabled }
      else { m with irqCounter := m.irqCounter - 1 } := by
  simp only [Mmc3.countScanline, Mmc3.ite_raiseIrq]

theorem State.mapIrq_of_map {s : State} {m : Mmc3} (h : s.map = .m4 m) : s.mapIrq = m.irqPending := by
  rw [State.mapIrq, h]

/-- Only mapper 4 has an interrupt line (R326). -/
theorem State.mapIrq_of_ne {s : State} (h : s.mapper ≠ .m4) : s.mapIrq = false := by
  unfold State.mapper at h
  unfold State.mapIrq
  cases hmap : s.map with
  | m4 => exact absurd (by rw [hmap]) h
  | m0 | m1 | m2 | m3 | m7 | m66 | m140 => rfl

theorem mem_otherThanFour {m : Mapper} : m ∈ otherThanFour ↔ m ≠ .m4 := by
  cases m <;> decide

/-! ### The statements -/

/-- Settles O44: the wired mode, mapper 1's table, and the one bit of mappers 4 and 7. -/
theorem mirrorModeFollowsTheVariant : Obligations.MirrorModeFollowsTheVariant := by
  intro s hw
  refine ⟨fun h => ?_, fun m h => ?_, fun m h => ?_, fun m h => ?_⟩
  · exact (State.mirrorMode_of_mem h).trans (hwMirrorMode_eq s.cart)
  · rw [State.mirrorMode, h]
    exact m1MirrorMode_eq m
  · rw [State.mirrorMode, h]
  · rw [State.mirrorMode, h]

/-- Settles O47: both rows read at mapper 1's own offset. -/
theorem serialMapperReadsFollowItsModes : Obligations.SerialMapperReadsFollowItsModes := fun s m h =>
  ⟨fun a => readProgram_of_map h (.head _) (m1PrgOffset_eq s.cart m a),
    fun a => readPattern_of_map h (.head _) (m1ChrOffset_eq s.cart m a)⟩

/-- Settles O48: each row is a register write of mapper 4; `M4.BANKDATA` sets the one element `target` chooses. -/
theorem scanlineMapperRegisterWrites : Obligations.ScanlineMapperRegisterWrites := by
  intro s m h done
  have write (f : Mmc3 → Mmc3) : updateM4 f s = done (f m) := updateM4_of_map h f
  refine ⟨fun _ _ _ => write _, fun d => ⟨m.R.set m.target.toNat d m.target.isLt, write _, fun k hk => ?_⟩,
    fun _ => write _, write _, fun _ => write _, write _, write _, write _⟩
  rw [Vector.getElem_set]
  exact if_congr eq_comm rfl rfl

/-- Settles O50: on mapper 4 the counter's three cases and the cleared latch; on the other variants both events are
the row that changes nothing. -/
theorem scanlineAndAcknowledgeEvents : Obligations.ScanlineAndAcknowledgeEvents := by
  refine ⟨fun s m h => ⟨?_, ?_, State.mapIrq_of_map h⟩, fun s h => ⟨?_, ?_, State.mapIrq_of_ne h⟩, fun _ => rfl⟩
  · rw [← Mmc3.countScanline_eq]
    exact onM4_of_map h _
  · exact onM4_of_map h _
  · exact onMapper_of_mem (mem_otherThanFour.2 h) _
  · exact onMapper_of_mem (mem_otherThanFour.2 h) _

end Sys2Proof.Machine
end

section
/-! The two interrupt latches (R183, R322, R327): one event keeps a latch, raises it for a cause or clears it for a
cause. What each row does to the frame interrupt flag and to the mapper's line is said in those terms, and the statement
is read off the two causes of each latch. -/

namespace Sys2Proof.Machine

/-! ### One step of a latch -/

/-- A latch before and after an event: raised only where `raise` holds, cleared only where `clear` holds. -/
inductive LatchStep (raise clear : Prop) : Bool → Bool → Prop where
  | kept (b : Bool) : LatchStep raise clear b b
  | raised (cause : raise) (b : Bool) : LatchStep raise clear b true
  | cleared (cause : clear) (b : Bool) : LatchStep raise clear b false

namespace LatchStep

variable {raise clear raise' clear' : Prop} {b c d : Bool}

theorem rise (h : LatchStep raise clear b c) (hb : b = false) (hc : c = true) : raise := by
  cases h with
  | kept => exact absurd (hb.symm.trans hc) Bool.false_ne_true
  | raised cause => exact cause
  | cleared => exact absurd hc Bool.false_ne_true

theorem fall (h : LatchStep raise clear b c) (hb : b = true) (hc : c = false) : clear := by
  cases h with
  | kept => exact absurd (hc.symm.trans hb) Bool.false_ne_true
  | raised => exact absurd hc.symm Bool.false_ne_true
  | cleared cause => exact cause

theorem imp (h : LatchStep raise clear b c) (hraise : raise → raise') (hclear : clear → clear') :
    LatchStep raise' clear' b c := by
  cases h with
  | kept => exact .kept _
  | raised cause => exact .raised (hraise cause) _
  | cleared cause => exact .cleared (hclear cause) _

/-- Of two steps the later one decides, unless it keeps the latch. -/
theorem trans (h : LatchStep raise clear b c) (h' : LatchStep raise clear c d) : LatchStep raise clear b d := by
  cases h' with
  | kept => exact h
  | raised cause => exact .raised cause _
  | cleared cause => exact .cleared cause _

end LatchStep

/-! ### The causes (R183, R322, R327) -/

/-- A master clock that runs a CPU cycle in which the 4-step sequence, not inhibited, reaches step 4 (R177, R191). -/
def raisesFrameFlag (i : Instr) (s : State) : Prop :=
  i = .mclk ∧ s.apu.masterClockPhase = 0 ∧ s.apu.fs.stepCount = .four ∧ s.apu.fs.interruptInhibited = false ∧
    (s.apu.fs.cpuCycleCounter = 59658 ∨ s.apu.fs.cpuCycleCounter = 59659)

/-- The acknowledge, the status read, `RESET` and an inhibiting control write (R182, R215, R350, R179). -/
def clearsFrameFlag (i : Instr) : Prop :=
  i = .ackapu ∨ i = .r4015 ∨ i = .reset ∨ ∃ mode, i = .w4017 mode true

/-- The acknowledge, the disabling write and `RESET` (R308, R305, R350). -/
def clearsMapIrq (i : Instr) : Prop := i = .ackmap ∨ i = .m4Irqdis ∨ i = .reset

/-! ### The frame interrupt flag under the clock -/

/-- The tick keeps the mode and the inhibit; the counter goes up by one or back to zero (R177). -/
theorem Apu.halfTick_sequencer (ps : Params) (a : Apu) :
    (a.halfTick ps).fs.stepCount = a.fs.stepCount ∧
      (a.halfTick ps).fs.interruptInhibited = a.fs.interruptInhibited ∧
      ((a.halfTick ps).fs.cpuCycleCounter = a.fs.cpuCycleCounter + 1 ∨ (a.halfTick ps).fs.cpuCycleCounter = 0) := by
  rcases a.halfTick_cases ps with ⟨-, htick⟩ | ⟨e, -, -, htick⟩ <;> rw [htick]
  · exact ⟨rfl, rfl, .inl rfl⟩
  · rw [Apu.atEntry_fs, FrameSequencer.atEntry_eq]
    cases e.wrap with
    | true => exact ⟨rfl, rfl, .inr rfl⟩
    | false => exact ⟨rfl, rfl, .inl rfl⟩

/-- Only the last entry of `FS4` raises the interrupt (R175). -/
theorem count_of_mem_fs4_of_interrupt {e : ScheduleEntry} (he : e ∈ fs4) (hint : e.interrupt = true) :
    e.count = 59660 := by
  revert e
  decide

/-- A tick raises the flag only as it reaches the last entry of the 4-step sequence, not inhibited (R177). -/
theorem Apu.halfTick_latchStep (ps : Params) (a : Apu) :
    LatchStep (a.fs.stepCount = .four ∧ a.fs.interruptInhibited = false ∧ a.fs.cpuCycleCounter = 59659) False
      a.fs.interruptFlag (a.halfTick ps).fs.interruptFlag := by
  rcases a.halfTick_cases ps with ⟨-, htick⟩ | ⟨e, he, hcount, htick⟩ <;> rw [htick]
  · exact .kept _
  · simp only [Apu.atEntry_fs, FrameSequencer.atEntry_eq]
    cases hraise : (e.interrupt && decide (a.fs.stepCount = .four) && !a.fs.interruptInhibited) with
    | false => rw [Bool.or_false]; exact .kept _
    | true =>
      rw [Bool.or_true]
      simp only [Bool.and_eq_true, decide_eq_true_eq, Bool.not_eq_true'] at hraise
      obtain ⟨⟨hint, hfour⟩, hinhibit⟩ := hraise
      rw [hfour] at he
      have hlast := count_of_mem_fs4_of_interrupt he hint
      exact .raised ⟨hfour, hinhibit, by omega⟩ _

/-- A CPU cycle is two ticks, the second from the next count of the same sequence (R191). -/
theorem Apu.cpuCycle_latchStep (ps : Params) (a : Apu) :
    LatchStep (a.fs.stepCount = .four ∧ a.fs.interruptInhibited = false ∧
        (a.fs.cpuCycleCounter = 59658 ∨ a.fs.cpuCycleCounter = 59659)) False
      a.fs.interruptFlag (a.cpuCycle ps).fs.interruptFlag := by
  obtain ⟨hmode, hinhibit, hcounter⟩ := a.halfTick_sequencer ps
  unfold Apu.cpuCycle
  rw [Apu.clockTimers_fs]
  refine ((a.halfTick_latchStep ps).imp ?_ id).trans (((a.halfTick ps).halfTick_latchStep ps).imp ?_ id)
  · rintro ⟨hfour, hfree, hlast⟩
    exact ⟨hfour, hfree, .inr hlast⟩
  · rintro ⟨hfour, hfree, hlast⟩
    exact ⟨hmode ▸ hfour, hinhibit ▸ hfree, .inl (by omega)⟩

theorem Apu.masterClock_fs (ps : Params) (a : Apu) :
    (a.masterClock ps).fs = if a.masterClockPhase = 0 then (a.cpuCycle ps).fs else a.fs :=
  apply_ite Apu.fs _ _ _

theorem Apu.writeControl_fs (ps : Params) (a : Apu) (mode inhibit : Bool) :
    (a.writeControl ps mode inhibit).fs = a.fs.writeControl mode inhibit := by
  cases mode <;> rfl

/-! ### The frame interrupt flag under every event -/

section Rows

variable {i : Instr} {s t : State}

/-- `MCLK` runs a CPU cycle on phase 0 alone (R190). -/
theorem frameFlag_latchStep_of_mclk (h : exec .mclk s = .next t) :
    LatchStep (raisesFrameFlag .mclk s) (clearsFrameFlag .mclk) s.apu.fs.interruptFlag t.apu.fs.interruptFlag := by
  obtain rfl := finish_eq_next.1 h
  rw [State.withAnswer_apu, State.withApu_apu, Apu.masterClock_fs]
  split
  next hphase => exact (s.apu.cpuCycle_latchStep s.params).imp (fun hstep => ⟨rfl, hphase, hstep⟩) False.elim
  next => exact .kept _

/-- `W4017` clears the flag when it inhibits and keeps it otherwise (R179). -/
theorem frameFlag_latchStep_of_w4017 {mode inhibit : Bool} (h : exec (.w4017 mode inhibit) s = .next t) :
    LatchStep (raisesFrameFlag (.w4017 mode inhibit) s) (clearsFrameFlag (.w4017 mode inhibit))
      s.apu.fs.interruptFlag t.apu.fs.interruptFlag := by
  obtain rfl := finish_eq_next.1 h
  rw [State.withAnswer_apu, State.withApu_apu, Apu.writeControl_fs]
  show LatchStep _ _ _ (s.apu.fs.interruptFlag && !inhibit)
  cases inhibit with
  | true =>
    rw [Bool.not_true, Bool.and_false]
    exact .cleared (.inr (.inr (.inr ⟨mode, rfl⟩))) _
  | false =>
    rw [Bool.not_false, Bool.and_true]
    exact .kept _

/-- A row that replaces the APU does to the flag what its new APU says. -/
theorem frameFlag_latchStep_of_finish {raise clear : Prop} {r : Answer} {a : Apu}
    (h : finish r (s.withApu a) = .next t)
    (ha : LatchStep raise clear s.apu.fs.interruptFlag a.fs.interruptFlag) :
    LatchStep raise clear s.apu.fs.interruptFlag t.apu.fs.interruptFlag := by
  obtain rfl := finish_eq_next.1 h
  exact ha

/-- The channel and enable writes leave the sequencer alone; the other rows of the APU are those of the rules. -/
theorem frameFlag_latchStep_of_apuRow (row : isApuRow i = true) (h : exec i s = .next t) :
    LatchStep (raisesFrameFlag i s) (clearsFrameFlag i) s.apu.fs.interruptFlag t.apu.fs.interruptFlag := by
  cases i with
  | w4000 | w4001 | w4002 | w4003 | w4004 | w4005 | w4006 | w4007 | w4008 | w4009 | w400A | w400B | w400C | w400D
  | w400E | w400F | w4010 | w4011 | w4012 | w4013 | w4015 => exact frameFlag_latchStep_of_finish h (.kept _)
  | mclk => exact frameFlag_latchStep_of_mclk h
  | w4017 => exact frameFlag_latchStep_of_w4017 h
  | r4015 => exact frameFlag_latchStep_of_finish h (.cleared (.inr (.inl rfl)) _)
  | ackapu => exact frameFlag_latchStep_of_finish h (.cleared (.inl rfl) _)
  | _ => cases row

/-- Beside the APU's rows, `RESET` alone touches the flag (R59). -/
theorem frameFlag_latchStep_of_exec (h : exec i s = .next t) :
    LatchStep (raisesFrameFlag i s) (clearsFrameFlag i) s.apu.fs.interruptFlag t.apu.fs.interruptFlag := by
  cases effect_of_exec h with
  | answer | registers | sram | chr => exact .kept _
  | apu a r row => exact frameFlag_latchStep_of_apuRow row h
  | reset row => exact .cleared (.inr (.inr (.inl row))) _

/-! ### The mapper's interrupt line under every event -/

/-- The answer is not the mapper's: a row does to the line what the state it finishes with says. -/
theorem mapIrq_latchStep_of_finish {raise clear : Prop} {r : Answer} {u : State} (h : finish r u = .next t)
    (hu : LatchStep raise clear s.mapIrq u.mapIrq) : LatchStep raise clear s.mapIrq t.mapIrq := by
  obtain rfl := finish_eq_next.1 h
  exact hu

/-- `MAP.PPUW` stores a byte or nothing, and keeps the mapper's registers (R247). -/
theorem mapIrq_latchStep_of_mapPpuw {raise clear : Prop} {a : PpuAddr} {d : Byte}
    (h : execMapPpuw a d s = .next t) : LatchStep raise clear s.mapIrq t.mapIrq := by
  unfold execMapPpuw at h
  split at h
  · exact mapIrq_latchStep_of_finish h (.kept _)
  · exact mapIrq_latchStep_of_finish h (.kept _)

theorem State.mapper_ne_of_onMapper {ms : List Mapper} {k : Mapper} {body : Result} (hk : k ∉ ms)
    (h : s.onMapper ms body = .next t) : s.mapper ≠ k :=
  fun hs => hk (hs ▸ (onMapper_eq_next.1 h).1)

/-- Without mapper 4 the line stays down: no event installs another variant (R244, R326). -/
theorem mapIrq_latchStep_of_ne {raise clear : Prop} (hs : s.mapper ≠ .m4) (h : exec i s = .next t) :
    LatchStep raise clear s.mapIrq t.mapIrq := by
  obtain ⟨-, -, hmapper, -⟩ := noEventChangesParametersVariantOrRom i s t h
  rw [State.mapIrq_of_ne hs, State.mapIrq_of_ne (hmapper ▸ hs)]
  exact .kept _

/-- A row of mapper 4 does to the line what its register update does to the latch. -/
theorem mapIrq_latchStep_of_onM4 {raise clear : Prop} {r : Answer} {f : Mmc3 → Mmc3}
    (h : (s.onM4 fun m => finish r (s.withMap (.m4 (f m)))) = .next t)
    (hf : ∀ m, LatchStep raise clear m.irqPending (f m).irqPending) : LatchStep raise clear s.mapIrq t.mapIrq := by
  obtain ⟨m, hm, h⟩ := onM4_eq_next.1 h
  obtain rfl := finish_eq_next.1 h
  rw [State.mapIrq_of_map hm]
  exact hf m

/-- A scanline raises the latch or keeps it (R307). -/
theorem Mmc3.countScanline_latchStep (ps : Params) (m : Mmc3) :
    LatchStep True False m.irqPending (m.countScanline ps).irqPending := by
  unfold Mmc3.countScanline
  split
  · split
    · exact .raised trivial _
    · exact .kept _
  · split
    · split
      · exact .raised trivial _
      · exact .kept _
    · exact .kept _

theorem State.resetEvent_mapIrq (s : State) : s.resetEvent.mapIrq = false := by
  show (s.withMap (mapReset s.mapper)).mapIrq = false
  cases s.mapper <;> rfl

/-- Mapper 4's registers change in its own rows alone; the other variants' rows find no line, and the rest keep the
mapper. -/
theorem mapIrq_latchStep_of_exec (h : exec i s = .next t) :
    LatchStep (i = .scanline) (clearsMapIrq i) s.mapIrq t.mapIrq := by
  cases i with
  | scanline =>
    exact mapIrq_latchStep_of_onM4 h fun m => (m.countScanline_latchStep s.params).imp (fun _ => rfl) False.elim
  | ackmap => exact mapIrq_latchStep_of_onM4 h fun _ => .cleared (.inl rfl) _
  | m4Irqdis => exact mapIrq_latchStep_of_onM4 h fun _ => .cleared (.inr (.inl rfl)) _
  | reset =>
    refine mapIrq_latchStep_of_finish h ?_
    rw [State.resetEvent_mapIrq]
    exact .cleared (.inr (.inr rfl)) _
  | m4Banksel | m4Bankdata | m4Mirror | m4Ramprot | m4Irqlatch | m4Irqreload | m4Irqen =>
    exact mapIrq_latchStep_of_onM4 h fun _ => .kept _
  | m1Load =>
    obtain ⟨m, hm, -⟩ := onM1_eq_next.1 h
    exact mapIrq_latchStep_of_ne (by simp [State.mapper, hm]) h
  | m2Bank | m3Bank | m7Bank | m66Bank | m140Bank =>
    exact mapIrq_latchStep_of_ne (State.mapper_ne_of_onMapper (by decide) h) h
  | w4000 | w4001 | w4002 | w4003 | w4004 | w4005 | w4006 | w4007 | w4008 | w4009 | w400A | w400B | w400C | w400D
  | w400E | w400F | w4010 | w4011 | w4012 | w4013 | w4015 | w4017 | r4015 | mclk | ackapu | nopNotmine =>
    exact mapIrq_latchStep_of_finish h (.kept _)
  | scanlineInert | ackmapInert | m1Sramr | m1Sramw | m4Sramr | m4Sramw
  | m0Cpur | m1Cpur | m2Cpur | m3Cpur | m4Cpur | m7Cpur | m66Cpur
  | m0Ppur | m1Ppur | m2Ppur | m3Ppur | m4Ppur | m7Ppur | m66Ppur =>
    exact mapIrq_latchStep_of_finish (onMapper_eq_next.1 h).2 (.kept _)
  | mapPpuw => exact mapIrq_latchStep_of_mapPpuw h

end Rows

/-! ### The statement -/

/-- Settles O14: a latch that rises or falls in an event has the cause of its step. -/
theorem interruptLatchesChangeOnlyWhereTheRulesSay : Obligations.InterruptLatchesChangeOnlyWhereTheRulesSay := by
  intro i s t h
  have frame := frameFlag_latchStep_of_exec h
  have line := mapIrq_latchStep_of_exec h
  exact ⟨frame.rise, frame.fall, line.rise, line.fall⟩

end Sys2Proof.Machine
end

section
/-! Which rows complete (R94, R320) and which state they may touch (R13, R59): an operation completes exactly where the
table gives its row to the installed variant, and a well-formed operation is such a row; the APU's rows and the others
touch disjoint state. The three statements are read off these and the six effects. -/

namespace Sys2Proof.Machine

open Sys2Proof.Laws (RowOfVariant.Statement RowOfVariant.everywhere RowOfVariant.only RowOfVariant.onlyAt
  RowOfVariant.pairAt RowOfVariant.inert)

/-! ### Rows and variants -/

/-- The family of `Laws/PerInstr` put together, each row by its shape. -/
theorem mem_rowVariants_of_wellFormed {m : Mapper} {i : Instr} (h : wellFormed m i = true) : m ∈ rowVariants i := by
  suffices hrow : RowOfVariant.Statement i from hrow m h
  cases i with
  | w4000 | w4001 | w4002 | w4003 | w4004 | w4005 | w4006 | w4007 | w4008 | w4009 | w400A | w400B | w400C | w400D
  | w400E | w400F | w4010 | w4011 | w4012 | w4013 | w4015 | w4017 | r4015 | mclk | reset | ackapu | mapPpuw
  | nopNotmine => exact RowOfVariant.everywhere rfl
  | scanlineInert | ackmapInert => exact RowOfVariant.inert (fun _ => rfl) rfl
  | scanline | ackmap | m4Banksel | m4Bankdata | m4Mirror | m4Ramprot | m4Irqlatch | m4Irqreload | m4Irqdis | m4Irqen
  | m4Sramw | m4Sramr => exact RowOfVariant.only .m4 (fun _ => rfl) rfl
  | m1Load | m1Sramw | m1Sramr => exact RowOfVariant.only .m1 (fun _ => rfl) rfl
  | m2Bank => exact RowOfVariant.only .m2 (fun _ => rfl) rfl
  | m3Bank => exact RowOfVariant.only .m3 (fun _ => rfl) rfl
  | m7Bank => exact RowOfVariant.only .m7 (fun _ => rfl) rfl
  | m66Bank => exact RowOfVariant.only .m66 (fun _ => rfl) rfl
  | m140Bank => exact RowOfVariant.only .m140 (fun _ => rfl) rfl
  | m4Cpur | m4Ppur => exact RowOfVariant.onlyAt .m4 _ (fun _ => rfl) rfl
  | m1Cpur | m1Ppur => exact RowOfVariant.onlyAt .m1 _ (fun _ => rfl) rfl
  | m0Cpur | m0Ppur => exact RowOfVariant.onlyAt .m0 _ (fun _ => rfl) rfl
  | m2Cpur | m2Ppur => exact RowOfVariant.onlyAt .m2 _ (fun _ => rfl) rfl
  | m3Cpur | m3Ppur => exact RowOfVariant.onlyAt .m3 _ (fun _ => rfl) rfl
  | m7Cpur | m7Ppur => exact RowOfVariant.onlyAt .m7 _ (fun _ => rfl) rfl
  | m66Cpur | m66Ppur => exact RowOfVariant.pairAt _ (fun _ => rfl) rfl

theorem mem_allMappers (m : Mapper) : m ∈ allMappers := by
  cases m <;> decide

theorem State.exists_map_of_mapper_m1 {s : State} (h : s.mapper = .m1) : ∃ m, s.map = .m1 m := by
  unfold State.mapper at h
  cases hmap : s.map <;> simp_all

theorem State.exists_map_of_mapper_m4 {s : State} (h : s.mapper = .m4) : ∃ m, s.map = .m4 m := by
  unfold State.mapper at h
  cases hmap : s.map <;> simp_all

/-! ### Completion -/

section Completion

variable {s : State} {r : Answer}

theorem onMapper_completes {ms : List Mapper} {u : State} (h : s.mapper ∈ ms) :
    ∃ t, s.onMapper ms (finish r u) = .next t := ⟨_, onMapper_of_mem h _⟩

theorem onM1_completes {f : Mmc1 → State} (h : s.mapper ∈ [Mapper.m1]) :
    ∃ t, (s.onM1 fun m => finish r (f m)) = .next t := by
  obtain ⟨m, hm⟩ := State.exists_map_of_mapper_m1 (List.mem_singleton.1 h)
  exact ⟨_, onM1_of_map hm _⟩

theorem onM4_completes {f : Mmc3 → State} (h : s.mapper ∈ [Mapper.m4]) :
    ∃ t, (s.onM4 fun m => finish r (f m)) = .next t := by
  obtain ⟨m, hm⟩ := State.exists_map_of_mapper_m4 (List.mem_singleton.1 h)
  exact ⟨_, onM4_of_map hm _⟩

/-- `MAP.PPUW` completes with graphics RAM and with graphics ROM (R247). -/
theorem execMapPpuw_completes (a : PpuAddr) (d : Byte) (s : State) : ∃ t, execMapPpuw a d s = .next t := by
  unfold execMapPpuw
  split
  · exact ⟨_, rfl⟩
  · exact ⟨_, rfl⟩

/-- A row the table gives the installed variant completes (R320). -/
theorem exec_completes {i : Instr} (h : s.mapper ∈ rowVariants i) : ∃ t, exec i s = .next t := by
  cases i with
  | w4000 | w4001 | w4002 | w4003 | w4004 | w4005 | w4006 | w4007 | w4008 | w4009 | w400A | w400B | w400C | w400D
  | w400E | w400F | w4010 | w4011 | w4012 | w4013 | w4015 | w4017 | r4015 | mclk | reset | ackapu | nopNotmine =>
    exact ⟨_, rfl⟩
  | scanline | ackmap | m4Banksel | m4Bankdata | m4Mirror | m4Ramprot | m4Irqlatch | m4Irqreload | m4Irqdis | m4Irqen =>
    exact onM4_completes h
  | m1Load => exact onM1_completes h
  | scanlineInert | ackmapInert | m1Sramr | m1Sramw | m4Sramr | m4Sramw | m2Bank | m3Bank | m7Bank | m66Bank | m140Bank
  | m0Cpur | m1Cpur | m2Cpur | m3Cpur | m4Cpur | m7Cpur | m66Cpur
  | m0Ppur | m1Ppur | m2Ppur | m3Ppur | m4Ppur | m7Ppur | m66Ppur => exact onMapper_completes h
  | mapPpuw a d => exact execMapPpuw_completes a d s

/-- A row the table does not give the installed variant is refused (R94). -/
theorem exec_of_not_mem_rowVariants {i : Instr} (h : s.mapper ∉ rowVariants i) :
    exec i s = .refused .absentOnThisMapper := by
  cases i with
  | w4000 | w4001 | w4002 | w4003 | w4004 | w4005 | w4006 | w4007 | w4008 | w4009 | w400A | w400B | w400C | w400D
  | w400E | w400F | w4010 | w4011 | w4012 | w4013 | w4015 | w4017 | r4015 | mclk | reset | ackapu | mapPpuw
  | nopNotmine => exact absurd (mem_allMappers s.mapper) h
  | scanline | ackmap | m4Banksel | m4Bankdata | m4Mirror | m4Ramprot | m4Irqlatch | m4Irqreload | m4Irqdis | m4Irqen =>
    exact onM4_of_ne (mt List.mem_singleton.2 h) _
  | m1Load => exact onM1_of_ne (mt List.mem_singleton.2 h) _
  | scanlineInert | ackmapInert | m1Sramr | m1Sramw | m4Sramr | m4Sramw | m2Bank | m3Bank | m7Bank | m66Bank | m140Bank
  | m0Cpur | m1Cpur | m2Cpur | m3Cpur | m4Cpur | m7Cpur | m66Cpur
  | m0Ppur | m1Ppur | m2Ppur | m3Ppur | m4Ppur | m7Ppur | m66Ppur => exact onMapper_of_not_mem h _

theorem mem_rowVariants_of_exec {i : Instr} {t : State} (h : exec i s = .next t) : s.mapper ∈ rowVariants i := by
  by_contra hrow
  rw [exec_of_not_mem_rowVariants hrow] at h
  cases h

end Completion

/-- No row of the APU stores a byte (R59). -/
theorem storedAt_of_isApuRow {i : Instr} (h : isApuRow i = true) (s : State) : storedAt i s = none := by
  cases i with
  | m1Sramw | m4Sramw | mapPpuw => cases h
  | _ => rfl

/-! ### The statements -/

/-- Settles O8: a well-formed operation is a row of the installed variant. -/
theorem everyWellFormedInstructionCompletes : Obligations.EveryWellFormedInstructionCompletes := by
  intro i s hwf
  obtain ⟨t, ht⟩ := exec_completes (mem_rowVariants_of_wellFormed hwf)
  obtain ⟨-, -, hmapper, hevents, -⟩ := noEventChangesParametersVariantOrRom i s t ht
  exact ⟨t, ht, hmapper, hevents⟩

/-- Settles O9: the rows of every variant are never absent; the others check the variant first. -/
theorem rowsOfAnotherMapperStopByName : Obligations.RowsOfAnotherMapperStopByName :=
  fun _ _ => exec_of_not_mem_rowVariants

/-- Settles O15: each of the six effects replaces the APU, or the mapper, or one storage; `RESET` is the exception of the
statement. -/
theorem apuAndMapperEventsTouchDisjointState : Obligations.ApuAndMapperEventsTouchDisjointState := by
  intro i s t h
  cases effect_of_exec h with
  | answer => exact ⟨fun _ => ⟨rfl, rfl, rfl, rfl⟩, fun _ _ => rfl⟩
  | apu a r row => exact ⟨fun _ => ⟨rfl, rfl, rfl, rfl⟩, fun other => by simp [row] at other⟩
  | registers m r row => exact ⟨fun apuRow => by simp [row] at apuRow, fun _ _ => rfl⟩
  | reset row => exact ⟨fun apuRow => by simp [row, isApuRow] at apuRow, fun _ other => absurd row other⟩
  | sram o d stored | chr o d _ stored =>
    exact ⟨fun apuRow => by simp [storedAt_of_isApuRow apuRow] at stored, fun _ _ => rfl⟩

end Sys2Proof.Machine
end

section
/-! Every step keeps the invariant (R15 to R24, R122, R167): each of its parts under every event, the APU's by the shapes
of its rows and by the two ticks and the timers of a CPU cycle, the mapper's by mapper 1's serial port, the storages' by
the six effects; put together for an event and then for a step. -/

namespace Sys2Proof.Machine

/-! ### Units -/

@[simp] theorem LengthCounter.load_enabled (l : LengthCounter) (i : BitVec 5) : (l.load i).enabled = l.enabled := by
  rw [LengthCounter.load_eq]

/-- The level written is the period written, in both modes (R129). -/
theorem Envelope.write_ok (e : Envelope) (haltloop const : Bool) (level : BitVec 4) :
    (e.write haltloop const level).ok := rfl

/-- A pulse is channel 1 or 2 by the constant of its sweep unit (R16). -/
def PulseId.usesOnesComplement : PulseId → Bool
  | .one => true
  | .two => false

theorem Pulse.writeDuty_ok {b : Bool} {p : Pulse} (hp : p.ok b) (duty : BitVec 2) (haltloop const : Bool)
    (level : BitVec 4) : (p.writeDuty duty haltloop const level).ok b := by
  obtain ⟨hlen, -, hsweep⟩ := hp
  exact ⟨hlen, p.env.write_ok haltloop const level, hsweep⟩

theorem Pulse.writeTimerHigh_ok {b : Bool} {p : Pulse} (hp : p.ok b) (ps : Params) (lenidx : BitVec 5)
    (thigh : BitVec 3) : (p.writeTimerHigh ps lenidx thigh).ok b := by
  obtain ⟨hlen, henv, hsweep⟩ := hp
  exact ⟨LengthCounter.load_ok hlen lenidx, henv, hsweep⟩

/-- A non-zero register stays non-zero through a timer clock (R167). -/
theorem Noise.clockTimer_shiftRegister_ne_zero {n : Noise} (h : n.lfsr.shiftRegister ≠ 0) (mp : Nat) :
    (n.clockTimer mp).lfsr.shiftRegister ≠ 0 := by
  show (if (timerClock mp n.timer).2 then n.lfsr.clock else n.lfsr).shiftRegister ≠ 0
  split
  · exact mt NoiseRegister.eq_zero_of_clock_eq_zero h
  · exact h

/-! ### One channel replaced -/

section Channels

variable {ps : Params} {a : Apu}

theorem Apu.Ok.pulse (h : a.Ok ps) (id : PulseId) : (a.pulse id).ok id.usesOnesComplement := by
  cases id with
  | one => exact h.pulse1
  | two => exact h.pulse2

/-- A channel that keeps its enable flag keeps the mask. -/
theorem Apu.Ok.withPulse (h : a.Ok ps) {id : PulseId} {p : Pulse} (hp : p.ok id.usesOnesComplement)
    (henabled : p.len.enabled = (a.pulse id).len.enabled) : (a.withPulse id p).Ok ps := by
  have hmask := h.mask
  unfold Apu.maskAgrees at hmask
  cases id with
  | one =>
    change _ = a.pulse1.len.enabled at henabled
    rw [← henabled] at hmask
    exact { h with pulse1 := hp, mask := hmask }
  | two =>
    change _ = a.pulse2.len.enabled at henabled
    rw [← henabled] at hmask
    exact { h with pulse2 := hp, mask := hmask }

theorem Apu.Ok.withTriangle (h : a.Ok ps) {t : Triangle} (ht : t.len.ok)
    (henabled : t.len.enabled = a.triangle.len.enabled) : Apu.Ok ps { a with triangle := t } := by
  have hmask := h.mask
  unfold Apu.maskAgrees at hmask
  rw [← henabled] at hmask
  exact { h with triangle := ht, mask := hmask }

theorem Apu.Ok.withNoise (h : a.Ok ps) {n : Noise} (hn : n.len.ok ∧ n.env.ok) (hlfsr : n.lfsr.shiftRegister ≠ 0)
    (henabled : n.len.enabled = a.noise.len.enabled) : Apu.Ok ps { a with noise := n } := by
  have hmask := h.mask
  unfold Apu.maskAgrees at hmask
  rw [← henabled] at hmask
  exact { h with noise := hn, lfsr := hlfsr, mask := hmask }

/-- The enable write sets the mask and the flags together (R212). -/
theorem Apu.Ok.writeEnable (h : a.Ok ps) (noise triangle pulse2 pulse1 : Bool) :
    (a.writeEnable noise triangle pulse2 pulse1).Ok ps :=
  { h with
    pulse1 := ⟨LengthCounter.setEnabled_ok h.pulse1.1 _, h.pulse1.2⟩
    pulse2 := ⟨LengthCounter.setEnabled_ok h.pulse2.1 _, h.pulse2.2⟩
    triangle := LengthCounter.setEnabled_ok h.triangle _
    noise := ⟨LengthCounter.setEnabled_ok h.noise.1 _, h.noise.2⟩
    mask := rfl }

theorem Apu.Ok.clearIrq (h : a.Ok ps) : Apu.Ok ps { a with fs := a.fs.clearIrq } := { h with fs := h.fs }

end Channels

/-! ### Sequencer and clock -/

section Clock

variable {ps : Params} {a : Apu}

/-- A written counter is zero, below any end of a schedule but zero (R179). -/
theorem FrameSequencer.writeControl_ok (ps : Params) (fs : FrameSequencer) (mode inhibit : Bool) :
    (fs.writeControl mode inhibit).ok ps := by
  refine ⟨?_, rfl⟩
  show _ ∨ 0 < _
  omega

theorem Apu.writeControl_masterClockPhase (ps : Params) (a : Apu) (mode inhibit : Bool) :
    (a.writeControl ps mode inhibit).masterClockPhase = a.masterClockPhase := by
  cases mode <;> rfl

theorem Apu.UnitsOk.writeControl (h : a.UnitsOk) (ps : Params) (mode inhibit : Bool) :
    (a.writeControl ps mode inhibit).UnitsOk := by
  have hwritten := h.withFs (a.fs.writeControl mode inhibit)
  cases mode with
  | false => exact hwritten
  | true => exact hwritten.quarterFrame.halfFrame ps.sweepOnesAdj

theorem Apu.Ok.writeControl (h : a.Ok ps) (mode inhibit : Bool) : (a.writeControl ps mode inhibit).Ok ps := by
  refine (h.units.writeControl ps mode inhibit).ok ?_ ?_
  · rw [Apu.writeControl_masterClockPhase]
    exact h.phase
  · rw [Apu.writeControl_fs]
    exact a.fs.writeControl_ok ps mode inhibit

/-- The timers change timers, steps and the noise register alone (R191). -/
theorem Apu.UnitsOk.clockTimers (h : a.UnitsOk) (ps : Params) : (a.clockTimers ps).UnitsOk := by
  obtain ⟨hpulse1, hpulse2, htriangle, hnoise, hlfsr, hmask⟩ := h
  have hlfsr' := Noise.clockTimer_shiftRegister_ne_zero hlfsr ps.minPeriod.noise
  rw [← Triangle.clockTimer_len ps.minPeriod.triangle] at htriangle
  unfold Apu.maskAgrees at hmask
  rw [← Triangle.clockTimer_len ps.minPeriod.triangle] at hmask
  rw [Apu.clockTimers_eq]
  cases a.evenCycleParity with
  | true => exact ⟨hpulse1, hpulse2, htriangle, hnoise, hlfsr', hmask⟩
  | false => exact ⟨hpulse1, hpulse2, htriangle, hnoise, hlfsr, hmask⟩

/-- From an even count two ticks stay inside the schedule and end on an even count: the first cannot wrap (R177). -/
theorem Apu.two_halfTicks_fs_ok (hps : paramsOk ps = true) (h : a.fs.ok ps) :
    ((a.halfTick ps).halfTick ps).fs.ok ps := by
  obtain ⟨hinside, heven⟩ := h
  obtain ⟨hmode, hinside', hcount⟩ := Apu.halfTick_fs hps a hinside
  rw [← hmode] at hinside'
  obtain ⟨hmode', hinside'', hcount'⟩ := Apu.halfTick_fs hps (a.halfTick ps) hinside'
  rw [← hmode'] at hinside''
  exact ⟨hinside'', by omega⟩

theorem Apu.Ok.cpuCycle (hps : paramsOk ps = true) (h : a.Ok ps) : (a.cpuCycle ps).Ok ps := by
  refine Apu.UnitsOk.ok (((h.units.halfTick ps).halfTick ps).clockTimers ps) ?_ ?_
  · exact (a.cpuCycle_masterClockPhase ps).trans_lt h.phase
  · show FrameSequencer.ok ps (Apu.clockTimers ps _).fs
    rw [Apu.clockTimers_fs]
    exact Apu.two_halfTicks_fs_ok hps h.fs

theorem one_le_apuDiv (hps : paramsOk ps = true) : 1 ≤ ps.apuDiv := by
  simp only [paramsOk, Bool.and_eq_true, decide_eq_true_eq] at hps
  exact hps.1.1

theorem Apu.Ok.masterClock (hps : paramsOk ps = true) (h : a.Ok ps) : (a.masterClock ps).Ok ps := by
  have hcycle : Apu.Ok ps (if a.masterClockPhase = 0 then a.cpuCycle ps else a) := by
    split
    · exact h.cpuCycle hps
    · exact h
  exact { hcycle with phase := Nat.mod_lt _ (one_le_apuDiv hps) }

end Clock

/-! ### Each part under every event -/

section Events

variable {i : Instr} {s t : State}

theorem apuOk_of_finish {r : Answer} {a : Apu} (h : finish r (s.withApu a) = .next t) (ha : a.Ok s.params) :
    t.apu.Ok t.params := by
  obtain rfl := finish_eq_next.1 h
  exact ha

/-- The APU's rows, by what they replace: one channel, the enable flags, the sequencer, or the clocked APU. -/
theorem apuOk_of_apuRow (hps : paramsOk s.params = true) (hs : s.apu.Ok s.params) (row : isApuRow i = true)
    (h : exec i s = .next t) : t.apu.Ok t.params := by
  cases i with
  | w4000 duty haltloop const level | w4004 duty haltloop const level =>
    exact apuOk_of_finish h (hs.withPulse (Pulse.writeDuty_ok (hs.pulse _) duty haltloop const level) rfl)
  | w4001 | w4002 | w4005 | w4006 => exact apuOk_of_finish h (hs.withPulse (hs.pulse _) rfl)
  | w4003 lenidx thigh | w4007 lenidx thigh =>
    exact apuOk_of_finish h (hs.withPulse (Pulse.writeTimerHigh_ok (hs.pulse _) s.params lenidx thigh)
      (LengthCounter.load_enabled _ lenidx))
  | w4008 | w400A => exact apuOk_of_finish h (hs.withTriangle hs.triangle rfl)
  | w400B lenidx =>
    exact apuOk_of_finish h
      (hs.withTriangle (LengthCounter.load_ok hs.triangle lenidx) (LengthCounter.load_enabled _ lenidx))
  | w400C haltloop const level =>
    exact apuOk_of_finish h (hs.withNoise ⟨hs.noise.1, Envelope.write_ok _ haltloop const level⟩ hs.lfsr rfl)
  | w400E => exact apuOk_of_finish h (hs.withNoise hs.noise hs.lfsr rfl)
  | w400F lenidx =>
    exact apuOk_of_finish h (hs.withNoise ⟨LengthCounter.load_ok hs.noise.1 lenidx, hs.noise.2⟩ hs.lfsr
      (LengthCounter.load_enabled _ lenidx))
  | w4009 | w400D | w4010 | w4011 | w4012 | w4013 => exact apuOk_of_finish h hs
  | w4015 => exact apuOk_of_finish h (hs.writeEnable ..)
  | w4017 => exact apuOk_of_finish h (hs.writeControl ..)
  | r4015 | ackapu => exact apuOk_of_finish h hs.clearIrq
  | mclk => exact apuOk_of_finish h (hs.masterClock hps)
  | _ => cases row

/-- Beside the APU's rows, `RESET` alone touches the APU (R59). -/
theorem apuOk_of_exec (hps : paramsOk s.params = true) (hs : s.apu.Ok s.params) (h : exec i s = .next t) :
    t.apu.Ok t.params := by
  cases effect_of_exec h with
  | answer | registers | sram | chr => exact hs
  | apu a r row => exact apuOk_of_apuRow hps hs row h
  | reset => exact apuReset_ok hps

/-- The reset write and the commit put the marker back; the marker of any other write only moves down, from a bit that
is not bit 0 (R283). -/
theorem Mmc1.load_shift_ne_zero {m : Mmc1} (h : m.shift ≠ 0) (sel : BitVec 2) (rst d : Bool) :
    (m.load sel rst d).shift ≠ 0 := by
  unfold Mmc1.load
  split
  · exact show (0b10000#5) ≠ 0 by decide
  · split
    · exact show (0b10000#5) ≠ 0 by decide
    · next hmarker =>
      show (bit d ++ m.shift.extractLsb' 1 4 : BitVec 5) ≠ 0
      generalize m.shift = shift at h hmarker
      revert d shift
      decide

theorem mapOk_of_finish {r : Answer} {u : State} (h : finish r u = .next t) (hu : u.map.ok) : t.map.ok := by
  obtain rfl := finish_eq_next.1 h
  exact hu

/-- Mapper 1's registers change in its own row and in `RESET` alone; the other rows keep the mapper's state, or replace
one without a shift register. -/
theorem mapOk_of_exec (hs : s.map.ok) (h : exec i s = .next t) : t.map.ok := by
  cases i with
  | m1Load sel rst d =>
    obtain ⟨m, hm, h⟩ := onM1_eq_next.1 h
    rw [hm] at hs
    exact mapOk_of_finish h (Mmc1.load_shift_ne_zero hs sel rst d)
  | reset => exact mapOk_of_finish h (mapReset_ok s.mapper)
  | scanline | ackmap | m4Banksel | m4Bankdata | m4Mirror | m4Ramprot | m4Irqlatch | m4Irqreload | m4Irqdis | m4Irqen =>
    obtain ⟨m, -, h⟩ := onM4_eq_next.1 h
    exact mapOk_of_finish h trivial
  | m2Bank | m3Bank | m7Bank | m66Bank | m140Bank =>
    obtain ⟨-, rfl⟩ := writeBank_eq_next.1 h
    trivial
  | w4000 | w4001 | w4002 | w4003 | w4004 | w4005 | w4006 | w4007 | w4008 | w4009 | w400A | w400B | w400C | w400D
  | w400E | w400F | w4010 | w4011 | w4012 | w4013 | w4015 | w4017 | r4015 | mclk | ackapu | nopNotmine =>
    exact mapOk_of_finish h hs
  | scanlineInert | ackmapInert | m1Sramr | m1Sramw | m4Sramr | m4Sramw
  | m0Cpur | m1Cpur | m2Cpur | m3Cpur | m4Cpur | m7Cpur | m66Cpur
  | m0Ppur | m1Ppur | m2Ppur | m3Ppur | m4Ppur | m7Ppur | m66Ppur =>
    exact mapOk_of_finish (onMapper_eq_next.1 h).2 hs
  | mapPpuw =>
    change execMapPpuw _ _ s = .next t at h
    unfold execMapPpuw at h
    split at h
    · exact mapOk_of_finish h hs
    · exact mapOk_of_finish h hs

/-- The storages may be read in a state that only differs elsewhere. -/
theorem State.StorageOk.congr (hs : s.StorageOk) (hcart : t.cart = s.cart) (hmapper : t.mapper = s.mapper)
    (hprg : t.prg = s.prg) (hchr : t.chr = s.chr) (hsram : t.sram = s.sram) : t.StorageOk := by
  obtain ⟨prgForm, chrForm, sramForm, prgFits, chrFits, sramFits, noSram⟩ := hs
  constructor <;> simpa only [hcart, hmapper, hprg, hchr, hsram]

theorem State.StorageOk.withSram (hs : s.StorageOk) (offset : BitVec 13) (d : Byte) (hsram : s.mapper.hasSram = true) :
    (s.withSram (s.sram.write (sramOffset offset) d)).StorageOk :=
  { hs with
    sramForm := Memory.wf_write _ _ _ hs.sramForm
    sramSize := Memory.within_write _ _ _ offset.isLt hs.sramSize
    noSram := fun hno => absurd (hsram.symm.trans hno) (by decide) }

theorem State.StorageOk.withChr (hs : s.StorageOk) (a : PpuAddr) (d : Byte) :
    (s.withChr (s.chr.write (patternOffset s a) d)).StorageOk :=
  { hs with
    chrForm := Memory.wf_write _ _ _ hs.chrForm
    chrSize := Memory.within_write _ _ _ (patternOffset_lt s a) hs.chrSize }

/-- Save memory is stored to by the rows of the two variants that have it, at an operand's offset (R287, R302). -/
theorem eq_of_storedAt_sram {o : Nat} (h : storedAt i s = some (.sram, o)) :
    (∃ offset, o = sramOffset offset) ∧ ∀ m ∈ rowVariants i, m.hasSram = true := by
  cases i with
  | m1Sramw offset | m4Sramw offset =>
    refine ⟨⟨offset, (Prod.mk.inj (Option.some.inj h)).2.symm⟩, fun m hm => ?_⟩
    rw [List.mem_singleton.1 hm]
    rfl
  | mapPpuw => simp [storedAt] at h
  | _ => cases h

/-- Graphics memory is stored to at a pattern offset (R247). -/
theorem eq_of_storedAt_chr {o : Nat} (h : storedAt i s = some (.chr, o)) : ∃ a, o = patternOffset s a := by
  cases i with
  | mapPpuw a =>
    obtain ⟨-, rfl⟩ : _ ∧ patternOffset s a = o := by simpa [storedAt] using h
    exact ⟨a, rfl⟩
  | m1Sramw | m4Sramw => simp [storedAt] at h
  | _ => cases h

/-- A store stays inside its storage; the other effects leave the storages alone (R39, R52). -/
theorem storageOk_of_exec (hs : s.StorageOk) (h : exec i s = .next t) : t.StorageOk := by
  cases effect_of_exec h with
  | answer | apu => exact hs.congr rfl rfl rfl rfl rfl
  | registers m r row variant => exact hs.congr rfl variant rfl rfl rfl
  | reset => exact hs.congr rfl s.resetEvent_mapper rfl rfl rfl
  | sram o d stored =>
    obtain ⟨⟨offset, rfl⟩, hsram⟩ := eq_of_storedAt_sram stored
    exact (hs.withSram offset d (hsram _ (mem_rowVariants_of_exec h))).congr rfl rfl rfl rfl rfl
  | chr o d _ stored =>
    obtain ⟨a, rfl⟩ := eq_of_storedAt_chr stored
    exact (hs.withChr a d).congr rfl rfl rfl rfl rfl

theorem State.Inv.paramsOk (hs : s.Inv) : paramsOk s.params = true := by
  have hsupported := hs.supported
  simp only [State.supported, Bool.and_eq_true] at hsupported
  exact hsupported.2

/-- An event that completes keeps the invariant. -/
theorem State.Inv.exec (hs : s.Inv) (h : exec i s = .next t) : t.Inv where
  supported := by
    obtain ⟨hparams, hcart, -⟩ := noEventChangesParametersVariantOrRom i s t h
    rw [State.supported, hparams, hcart]
    exact hs.supported
  apu := apuOk_of_exec hs.paramsOk hs.apu h
  map := mapOk_of_exec hs.map h
  storage := storageOk_of_exec hs.storage h

/-- The invariant does not speak of the pending events. -/
theorem State.Inv.withEvents (hs : s.Inv) (events : List EventWord) : (s.withEvents events).Inv where
  supported := hs.supported
  apu := hs.apu
  map := hs.map
  storage := hs.storage.congr rfl rfl rfl rfl rfl

end Events

/-! ### The statement -/

/-- Settles O10: a step holds the state or runs the event at the head of the queue. -/
theorem stepKeepsTheInvariant : Obligations.StepKeepsTheInvariant := by
  intro s t hs hstep
  cases hevents : s.events with
  | nil =>
    rw [step_of_events_nil hs.supported hevents] at hstep
    cases hstep
    exact hs
  | cons w rest =>
    rw [step_of_events_cons hs.supported hevents] at hstep
    cases hdecode : decode (s.withEvents rest).mapper w with
    | ok i =>
      rw [takeEvent_of_decode_ok hdecode] at hstep
      exact (hs.withEvents rest).exec hstep
    | error e =>
      rw [takeEvent_of_decode_error hdecode] at hstep
      cases hstep

end Sys2Proof.Machine
end

section
/-! The decoder (R71 to R91) by the range of the address and by the kind of the word: which words it refuses, the
operations a range decodes to, and that the encoder's words come back. The statements on decoding are read off them. -/

namespace Sys2Proof

/-! ### The ranges are disjoint (R59) -/

theorem cartAddr_iff (a : CpuAddr) : cartAddr a = true ↔ 0x8000 ≤ a.toNat := decide_eq_true_iff

theorem saveAddr_iff (a : CpuAddr) : saveAddr a = true ↔ 0x6000 ≤ a.toNat ∧ a.toNat ≤ 0x7FFF := by
  simp [saveAddr, BitVec.le_def]

/-- The APU's write addresses lie below the save-memory range (R51). -/
theorem apuWriteAddr_lt {a : CpuAddr} (h : apuWriteAddr a = true) : a.toNat < 0x6000 := by
  simp [apuWriteAddr, BitVec.le_def, BitVec.toNat_eq] at h
  omega

theorem cartAddr_of_saveAddr {a : CpuAddr} (h : saveAddr a = true) : cartAddr a = false := by
  rw [← Bool.not_eq_true, cartAddr_iff]
  rw [saveAddr_iff] at h
  omega

theorem cartAddr_of_apuWriteAddr {a : CpuAddr} (h : apuWriteAddr a = true) : cartAddr a = false := by
  rw [← Bool.not_eq_true, cartAddr_iff]
  have := apuWriteAddr_lt h
  omega

theorem saveAddr_of_apuWriteAddr {a : CpuAddr} (h : apuWriteAddr a = true) : saveAddr a = false := by
  rw [← Bool.not_eq_true, saveAddr_iff]
  have := apuWriteAddr_lt h
  omega

/-! ### Processor writes by range -/

section Cpuw

variable {m : Mapper} {a : CpuAddr} {d : Byte}

theorem decodeCpuw_eq : decodeCpuw m a d =
    if cartAddr a then decodeBankWrite m a d
    else if saveAddr a then decodeSaveWrite m a d
    else (decodeApuWrite a d).getD (.nopNotmine .cpuw a d) := by
  simp only [decodeCpuw, cartAddr_iff_bit, saveAddr_iff_bits, decide_eq_true_eq]

theorem decodeCpuw_of_cart (h : cartAddr a = true) : decodeCpuw m a d = decodeBankWrite m a d := by
  rw [decodeCpuw_eq, if_pos h]

theorem decodeCpuw_of_save (h : saveAddr a = true) : decodeCpuw m a d = decodeSaveWrite m a d := by
  simp [decodeCpuw_eq, cartAddr_of_saveAddr h, h]

theorem decodeCpuw_of_low (hcart : cartAddr a = false) (hsave : saveAddr a = false) :
    decodeCpuw m a d = (decodeApuWrite a d).getD (.nopNotmine .cpuw a d) := by
  simp [decodeCpuw_eq, hcart, hsave]

/-- A write the APU's decoder claims is no other unit's. -/
theorem decodeCpuw_of_apu {i : Instr} (h : decodeApuWrite a d = some i) : decodeCpuw m a d = i := by
  have haddr : apuWriteAddr a = true := by
    by_contra hother
    simp [decodeApuWrite_eq_none a d (Bool.eq_false_of_not_eq_true hother)] at h
  rw [decodeCpuw_of_low (cartAddr_of_apuWriteAddr haddr) (saveAddr_of_apuWriteAddr haddr), h]
  rfl

theorem decodeBankWrite_of_not_hasBankPort (h : m.hasBankPort = false) :
    decodeBankWrite m a d = .nopNotmine .cpuw a d := by
  cases m with
  | m0 | m140 => rfl
  | _ => cases h

theorem decodeSaveWrite_of_not_claimed (h : m.hasSram = false) (h140 : m ≠ .m140) :
    decodeSaveWrite m a d = .nopNotmine .cpuw a d := by
  cases m with
  | m1 | m4 => cases h
  | m140 => exact absurd rfl h140
  | m0 | m2 | m3 | m7 | m66 => rfl

/-- A write that no row claims (R90). -/
theorem decodeCpuw_of_not_claimed (h : claimed m .cpuw a = false) : decodeCpuw m a d = .nopNotmine .cpuw a d := by
  simp only [claimed, Bool.or_eq_false_iff, Bool.and_eq_false_iff, decide_eq_false_iff_not] at h
  obtain ⟨⟨hapu, hbank⟩, hsave⟩ := h
  cases hc : cartAddr a with
  | true =>
    rw [decodeCpuw_of_cart hc]
    exact decodeBankWrite_of_not_hasBankPort (hbank.resolve_right (by simp [hc]))
  | false =>
    cases hs : saveAddr a with
    | true =>
      obtain ⟨hsram, h140⟩ := hsave.resolve_right (by simp [hs])
      rw [decodeCpuw_of_save hs]
      exact decodeSaveWrite_of_not_claimed hsram h140
    | false =>
      rw [decodeCpuw_of_low hc hs, decodeApuWrite_eq_none a d hapu]
      rfl

end Cpuw

/-! ### Processor reads by range -/

section Cpur

variable {m : Mapper} {a : CpuAddr} {d : Byte}

theorem decodeCpur_eq : decodeCpur m a d =
    if cartAddr a then decodeCartRead m a
    else if saveAddr a then decodeSaveRead m a d
    else if a = 0x4015#16 then .r4015
    else .nopNotmine .cpur a d := by
  simp only [decodeCpur, cartAddr_iff_bit, saveAddr_iff_bits, decide_eq_true_eq]

theorem decodeCpur_of_cart (h : cartAddr a = true) : decodeCpur m a d = decodeCartRead m a := by
  rw [decodeCpur_eq, if_pos h]

theorem decodeCpur_of_save (h : saveAddr a = true) : decodeCpur m a d = decodeSaveRead m a d := by
  simp [decodeCpur_eq, cartAddr_of_saveAddr h, h]

theorem decodeCpur_of_low (hcart : cartAddr a = false) (hsave : saveAddr a = false) :
    decodeCpur m a d = if a = 0x4015#16 then .r4015 else .nopNotmine .cpur a d := by
  simp [decodeCpur_eq, hcart, hsave]

theorem decodeSaveRead_of_not_hasSram (h : m.hasSram = false) : decodeSaveRead m a d = .nopNotmine .cpur a d := by
  cases m with
  | m1 | m4 => cases h
  | _ => rfl

/-- A read that no row claims (R90). -/
theorem decodeCpur_of_not_claimed (h : claimed m .cpur a = false) : decodeCpur m a d = .nopNotmine .cpur a d := by
  simp only [claimed, Bool.or_eq_false_iff, Bool.and_eq_false_iff, decide_eq_false_iff_not] at h
  obtain ⟨⟨hstatus, hcart⟩, hsave⟩ := h
  cases hs : saveAddr a with
  | true =>
    rw [decodeCpur_of_save hs]
    exact decodeSaveRead_of_not_hasSram (hsave.resolve_right (by simp [hs]))
  | false => rw [decodeCpur_of_low hcart hs, if_neg hstatus]

end Cpur

/-! ### Rendering-unit words -/

theorem high_bits_eq_zero_iff (a : BitVec 16) : a.extractLsb' 14 2 = 0#2 ↔ a.toNat < 0x4000 := by
  have := a.isLt
  rw [BitVec.toNat_eq, BitVec.extractLsb'_toNat, Nat.shiftRight_eq_div_pow]
  simp
  omega

/-- Bit 13 of an address in the PPU space says which half it lies in (R50). -/
theorem bit13_eq_false_iff {a : BitVec 16} (h : a.toNat < 0x4000) : a.getLsbD 13 = false ↔ a.toNat < 0x2000 := by
  rw [BitVec.getLsbD, Nat.testBit_eq_decide_div_mod_eq, decide_eq_false_iff_not]
  omega

theorem patternAddr_iff (a : PpuAddr) : patternAddr a = true ↔ a.toNat < 0x2000 := decide_eq_true_iff

theorem toNat_extractLsb'_ppuAddress {a : BitVec 16} (h : a.toNat < 0x4000) :
    (a.extractLsb' 0 14).toNat = a.toNat := by
  rw [BitVec.extractLsb'_toNat, Nat.shiftRight_zero]
  omega

theorem decodePpuw_of_pattern {a : BitVec 16} {d : Byte} (h : a.toNat < 0x2000) :
    decodePpuw a d = .mapPpuw (a.extractLsb' 0 14) d := by
  rw [decodePpuw, (bit13_eq_false_iff (by omega)).2 h, if_neg Bool.false_ne_true]

theorem decodePpuw_of_not_pattern {a : BitVec 16} {d : Byte} (h : a.toNat < 0x4000) (hnot : ¬ a.toNat < 0x2000) :
    decodePpuw a d = .nopNotmine .ppuw a d := by
  rw [decodePpuw, Bool.eq_true_of_not_eq_false (mt (bit13_eq_false_iff h).1 hnot), if_pos rfl]

theorem decodePpur_of_pattern {m : Mapper} {a : BitVec 16} {d : Byte} (h : a.toNat < 0x2000) :
    decodePpur m a d = decodePatternRead m (a.extractLsb' 0 14) := by
  rw [decodePpur, (bit13_eq_false_iff (by omega)).2 h, if_neg Bool.false_ne_true]

theorem decodePpur_of_not_pattern {m : Mapper} {a : BitVec 16} {d : Byte} (h : a.toNat < 0x4000)
    (hnot : ¬ a.toNat < 0x2000) : decodePpur m a d = .nopNotmine .ppur a d := by
  rw [decodePpur, Bool.eq_true_of_not_eq_false (mt (bit13_eq_false_iff h).1 hnot), if_pos rfl]

/-! ### The decoder by kind -/

/-- The kinds: two of the processor's bus, two of the rendering unit's bus, five other events, and no event (R70, R71). -/
theorem kind_cases (k : BitVec 4) :
    k = 0#4 ∨ k = 1#4 ∨ k = 2#4 ∨ k = 3#4 ∨ k ∈ [4#4, 5#4, 6#4, 7#4, 8#4] ∨ 9 ≤ k.toNat := by
  revert k
  decide

section Kinds

variable {m : Mapper} {w : EventWord}

theorem decode_of_cpuw (h : eventKind w = 0#4) : decode m w = .ok (decodeCpuw m (eventAddr w) (eventData w)) := by
  rw [decode, if_pos h]

theorem decode_of_cpur (h : eventKind w = 1#4) : decode m w = .ok (decodeCpur m (eventAddr w) (eventData w)) := by
  simp [decode, h]

theorem decode_of_ppuw (h : eventKind w = 2#4) : decode m w =
    if (eventAddr w).toNat < 0x4000 then .ok (decodePpuw (eventAddr w) (eventData w))
    else .error .ppuAddressTooWide := by
  simp [decode, h, high_bits_eq_zero_iff]

theorem decode_of_ppur (h : eventKind w = 3#4) : decode m w =
    if (eventAddr w).toNat < 0x4000 then .ok (decodePpur m (eventAddr w) (eventData w))
    else .error .ppuAddressTooWide := by
  simp [decode, h, high_bits_eq_zero_iff]

/-- The operation of a word that is neither a bus word nor refused: its address and data are not looked at (R71). -/
def evtInstr (m : Mapper) (k : BitVec 4) : Instr :=
  if k = 4#4 then .mclk
  else if k = 5#4 then (if m = .m4 then .scanline else .scanlineInert)
  else if k = 6#4 then .reset
  else if k = 7#4 then .ackapu
  else (if m = .m4 then .ackmap else .ackmapInert)

theorem decode_of_evt (h : eventKind w ∈ [4#4, 5#4, 6#4, 7#4, 8#4]) :
    decode m w = .ok (evtInstr m (eventKind w)) := by
  unfold decode decodeEvt
  generalize eventKind w = k at h
  fin_cases h <;> rfl

theorem decode_of_no_event (h : 9 ≤ (eventKind w).toNat) : decode m w = .error .kindNotAnEvent := by
  have hne : ∀ k : BitVec 4, k.toNat < 9 → eventKind w ≠ k := fun k hk e => by rw [e] at h; omega
  simp [decode, decodeEvt, hne]

end Kinds

/-! ### Which words the decoder refuses (R71) -/

/-- The refusals with the kind and the address as numbers. -/
theorem refusedWord_iff (w : EventWord) : refusedWord w = true ↔
    9 ≤ (eventKind w).toNat ∨
      (((eventKind w).toNat = 2 ∨ (eventKind w).toNat = 3) ∧ ¬ (eventAddr w).toNat < 0x4000) := by
  rw [← high_bits_eq_zero_iff]
  simp [refusedWord, BitVec.le_def, BitVec.toNat_eq]

theorem toNat_mem_of_evt {k : BitVec 4} (h : k ∈ [4#4, 5#4, 6#4, 7#4, 8#4]) : 4 ≤ k.toNat ∧ k.toNat < 9 := by
  fin_cases h <;> decide

/-- The decoder refuses exactly the words R71 refuses. -/
theorem decode_eq_error_iff (m : Mapper) (w : EventWord) : (∃ e, decode m w = .error e) ↔ refusedWord w = true := by
  rw [refusedWord_iff]
  rcases kind_cases (eventKind w) with h | h | h | h | h | h
  · simp [decode_of_cpuw h, h]
  · simp [decode_of_cpur h, h]
  · rw [decode_of_ppuw h, h]
    split <;> simp_all
  · rw [decode_of_ppur h, h]
    split <;> simp_all
  · have := toNat_mem_of_evt h
    simp only [decode_of_evt h, reduceCtorEq, exists_false, false_iff]
    omega
  · simp [decode_of_no_event h, h]

theorem extractLsb'_eventAddr_high (w : EventWord) : (eventAddr w).extractLsb' 14 2 = w.extractLsb' 22 2 := by
  refine BitVec.eq_of_getLsbD_eq fun i hi => ?_
  simp only [eventAddr, BitVec.getLsbD_extractLsb', hi, show 14 + i < 16 by omega, decide_true, Bool.true_and]
  rw [show 8 + (14 + i) = 22 + i by omega]

/-! ### The APU's write rows -/

/-- The rows of the opcode table for the APU's registers, each an address (R72). -/
def apuWriteRows : List OpcodeRow := opcodeTable.take 22

theorem exists_apuWriteRow {a : CpuAddr} (h : apuWriteAddr a = true) : ∃ r ∈ apuWriteRows, eventAddr r.pattern = a := by
  have haddr : a ∈ apuWriteRows.map (fun r => eventAddr r.pattern) := by
    show a ∈ [0x4000#16, 0x4001#16, 0x4002#16, 0x4003#16, 0x4004#16, 0x4005#16, 0x4006#16, 0x4007#16, 0x4008#16,
      0x4009#16, 0x400A#16, 0x400B#16, 0x400C#16, 0x400D#16, 0x400E#16, 0x400F#16, 0x4010#16, 0x4011#16, 0x4012#16,
      0x4013#16, 0x4015#16, 0x4017#16]
    simp [apuWriteAddr, BitVec.le_def, BitVec.toNat_eq] at h ⊢
    omega
  exact List.mem_map.1 haddr

/-- The decoder's operation at a register's address is the row's. -/
theorem decodeApuWrite_of_row {r : OpcodeRow} (h : r ∈ apuWriteRows) (d : Byte) :
    ∃ i, decodeApuWrite (eventAddr r.pattern) d = some i ∧ i.mnemonic = r.mnemonic := by
  change r ∈ opcodeRows1 ++ opcodeRows2.take 6 at h
  fin_cases h <;> exact ⟨_, rfl, rfl⟩

theorem apuWriteAddr_of_decodeApuWrite_none {a : CpuAddr} {d : Byte} (h : decodeApuWrite a d = none) :
    apuWriteAddr a = false := by
  by_contra hapu
  obtain ⟨r, hr, rfl⟩ := exists_apuWriteRow (Bool.eq_true_of_not_eq_false hapu)
  obtain ⟨i, hi, -⟩ := decodeApuWrite_of_row hr d
  rw [h] at hi
  cases hi

/-! ### The operations the decoder gives are the block's (R94) -/

section WellFormed

variable {m : Mapper}

/-- What nobody claims, in an address range of its bus, is well formed (R90). -/
theorem wellFormed_nopNotmine {kind : BusKind} {a : BitVec 16} (d : Byte) (hok : busWordOk kind a = true)
    (hclaimed : claimed m kind a = false) : wellFormed m (.nopNotmine kind a d) = true := by
  simp [wellFormed, hok, hclaimed]

theorem decodeM4Write_wellFormed (a : CpuAddr) (d : Byte) : wellFormed .m4 (decodeM4Write a d) = true := by
  unfold decodeM4Write
  split_ifs <;> rfl

theorem apuWriteAddr_of_cart {a : CpuAddr} (h : cartAddr a = true) : apuWriteAddr a = false := by
  by_contra hapu
  simp [cartAddr_of_apuWriteAddr (Bool.eq_true_of_not_eq_false hapu)] at h

theorem apuWriteAddr_of_save {a : CpuAddr} (h : saveAddr a = true) : apuWriteAddr a = false := by
  by_contra hapu
  simp [saveAddr_of_apuWriteAddr (Bool.eq_true_of_not_eq_false hapu)] at h

theorem saveAddr_of_cart {a : CpuAddr} (h : cartAddr a = true) : saveAddr a = false := by
  by_contra hsave
  simp [cartAddr_of_saveAddr (Bool.eq_true_of_not_eq_false hsave)] at h

theorem decodeBankWrite_wellFormed {a : CpuAddr} (h : cartAddr a = true) (d : Byte) :
    wellFormed m (decodeBankWrite m a d) = true := by
  cases m with
  | m0 | m140 =>
    exact wellFormed_nopNotmine d rfl
      (by simp [claimed, apuWriteAddr_of_cart h, saveAddr_of_cart h, Mapper.hasBankPort])
  | m4 => exact decodeM4Write_wellFormed a d
  | m1 | m2 | m3 | m7 | m66 => rfl

theorem decodeSaveWrite_wellFormed {a : CpuAddr} (h : saveAddr a = true) (d : Byte) :
    wellFormed m (decodeSaveWrite m a d) = true := by
  cases m with
  | m0 | m2 | m3 | m7 | m66 =>
    exact wellFormed_nopNotmine d rfl
      (by simp [claimed, apuWriteAddr_of_save h, cartAddr_of_saveAddr h, Mapper.hasSram])
  | m1 | m4 | m140 => rfl

/-- One more branch of a chain of tests: what holds of its operation and of the rest holds of the chain. -/
theorem forall_of_ite_some {P : Instr → Prop} {c : Prop} [Decidable c] {j : Instr} {rest : Option Instr} (hj : P j)
    (hrest : ∀ i, rest = some i → P i) : ∀ i, (if c then some j else rest) = some i → P i := by
  intro i h
  split at h
  · cases h
    exact hj
  · exact hrest i h

/-- The rows of the APU are every variant's. -/
theorem decodeApuWrite_wellFormed {a : CpuAddr} {d : Byte} :
    ∀ i, decodeApuWrite a d = some i → wellFormed m i = true := by
  unfold decodeApuWrite
  repeat refine forall_of_ite_some rfl ?_
  intro i h
  cases h

theorem decodeCpuw_wellFormed (a : CpuAddr) (d : Byte) : wellFormed m (decodeCpuw m a d) = true := by
  cases hc : cartAddr a with
  | true =>
    rw [decodeCpuw_of_cart hc]
    exact decodeBankWrite_wellFormed hc d
  | false =>
    cases hs : saveAddr a with
    | true =>
      rw [decodeCpuw_of_save hs]
      exact decodeSaveWrite_wellFormed hs d
    | false =>
      rw [decodeCpuw_of_low hc hs]
      cases hi : decodeApuWrite a d with
      | some i => exact decodeApuWrite_wellFormed i hi
      | none =>
        refine wellFormed_nopNotmine d rfl ?_
        simp [claimed, apuWriteAddr_of_decodeApuWrite_none hi, hc, hs]

theorem decodeCartRead_wellFormed {a : CpuAddr} (h : cartAddr a = true) : wellFormed m (decodeCartRead m a) = true := by
  cases m <;> exact h

theorem decodeSaveRead_wellFormed {a : CpuAddr} (h : saveAddr a = true) (d : Byte) :
    wellFormed m (decodeSaveRead m a d) = true := by
  cases m with
  | m1 | m4 => rfl
  | m0 | m2 | m3 | m7 | m66 | m140 =>
    have hstatus : a ≠ 0x4015#16 := by
      rintro rfl
      exact absurd h (by decide)
    exact wellFormed_nopNotmine d rfl (by simp [claimed, cartAddr_of_saveAddr h, Mapper.hasSram, hstatus])

theorem decodeCpur_wellFormed (a : CpuAddr) (d : Byte) : wellFormed m (decodeCpur m a d) = true := by
  cases hc : cartAddr a with
  | true =>
    rw [decodeCpur_of_cart hc]
    exact decodeCartRead_wellFormed hc
  | false =>
    cases hs : saveAddr a with
    | true =>
      rw [decodeCpur_of_save hs]
      exact decodeSaveRead_wellFormed hs d
    | false =>
      rw [decodeCpur_of_low hc hs]
      split
      · rfl
      next hstatus => exact wellFormed_nopNotmine d rfl (by simp [claimed, hc, hs, hstatus])

/-- An address in the PPU space above the pattern tables is nobody's (R50, R90). -/
theorem wellFormed_nopNotmine_of_ppu {kind : BusKind} (hkind : kind = .ppuw ∨ kind = .ppur) {a : BitVec 16} (d : Byte)
    (h : a.toNat < 0x4000) (hnot : ¬ a.toNat < 0x2000) : wellFormed m (.nopNotmine kind a d) = true := by
  have hok : a ≤ 0x3FFF#16 := show a.toNat ≤ 0x3FFF by omega
  have hhigh : ¬ a < 0x2000#16 := hnot
  rcases hkind with rfl | rfl <;> simp [wellFormed, busWordOk, claimed, hok, hhigh]

theorem patternAddr_of_lt {a : BitVec 16} (h : a.toNat < 0x2000) : patternAddr (a.extractLsb' 0 14) = true := by
  rw [patternAddr_iff, toNat_extractLsb'_ppuAddress (by omega)]
  exact h

theorem decodePpuw_wellFormed {a : BitVec 16} (h : a.toNat < 0x4000) (d : Byte) :
    wellFormed m (decodePpuw a d) = true := by
  by_cases hpattern : a.toNat < 0x2000
  · rw [decodePpuw_of_pattern hpattern]
    exact patternAddr_of_lt hpattern
  · rw [decodePpuw_of_not_pattern h hpattern]
    exact wellFormed_nopNotmine_of_ppu (.inl rfl) d h hpattern

theorem decodePatternRead_wellFormed {a : PpuAddr} (h : patternAddr a = true) :
    wellFormed m (decodePatternRead m a) = true := by
  cases m <;> exact h

theorem decodePpur_wellFormed {a : BitVec 16} (h : a.toNat < 0x4000) (d : Byte) :
    wellFormed m (decodePpur m a d) = true := by
  by_cases hpattern : a.toNat < 0x2000
  · rw [decodePpur_of_pattern hpattern]
    exact decodePatternRead_wellFormed (patternAddr_of_lt hpattern)
  · rw [decodePpur_of_not_pattern h hpattern]
    exact wellFormed_nopNotmine_of_ppu (.inr rfl) d h hpattern

theorem evtInstr_wellFormed {k : BitVec 4} (h : k ∈ [4#4, 5#4, 6#4, 7#4, 8#4]) : wellFormed m (evtInstr m k) = true := by
  fin_cases h <;> cases m <;> rfl

end WellFormed

/-! ### The encoder's words come back (R71) -/

section RoundTrip

variable {m : Mapper} {a : CpuAddr} {d : Byte}

theorem decode_cpuwWord_of_apu {i : Instr} (h : decodeApuWrite a d = some i) : decode m (cpuwWord a d) = .ok i := by
  rw [decode_cpuwWord, decodeCpuw_of_apu h]

theorem decode_cpuwWord_of_cart {i : Instr} (ha : cartAddr a = true) (h : decodeBankWrite m a d = i) :
    decode m (cpuwWord a d) = .ok i := by
  rw [decode_cpuwWord, decodeCpuw_of_cart ha, h]

theorem saveAddr_saveAddrOf (o : BitVec 13) : saveAddr (saveAddrOf o) = true := by
  rw [saveAddr_iff_bits, (saveAddrOf_fields o).2.1]
  rfl

theorem decode_cpuwWord_saveAddrOf (o : BitVec 13) (d : Byte) :
    decode m (cpuwWord (saveAddrOf o) d) = .ok (decodeSaveWrite m (saveAddrOf o) d) := by
  rw [decode_cpuwWord, decodeCpuw_of_save (saveAddr_saveAddrOf o)]

theorem decode_cpurWord_saveAddrOf (o : BitVec 13) :
    decode m (cpurWord (saveAddrOf o)) = .ok (decodeSaveRead m (saveAddrOf o) 0#8) := by
  rw [decode_cpurWord, decodeCpur_of_save (saveAddr_saveAddrOf o)]

theorem decode_cpurWord_of_cart (ha : cartAddr a = true) : decode m (cpurWord a) = .ok (decodeCartRead m a) := by
  rw [decode_cpurWord, decodeCpur_of_cart ha]

theorem toNat_ppuAddress (a : PpuAddr) : (0#2 ++ a : BitVec 16).toNat = a.toNat := by
  show (0#2 ++ a : BitVec (2 + 14)).toNat = a.toNat
  rw [BitVec.toNat_append]
  simp

theorem decode_ppurWord_of_pattern {a : PpuAddr} (ha : patternAddr a = true) :
    decode m (ppurWord a) = .ok (decodePatternRead m a) := by
  rw [patternAddr_iff, ← toNat_ppuAddress] at ha
  rw [decode_ppurWord, decodePpur_of_pattern ha, ppuAddress_low]

theorem decode_ppuwWord_of_pattern {a : PpuAddr} (ha : patternAddr a = true) (d : Byte) :
    decode m (ppuwWord a d) = .ok (.mapPpuw a d) := by
  rw [patternAddr_iff, ← toNat_ppuAddress] at ha
  rw [decode_ppuwWord, decodePpuw_of_pattern ha, ppuAddress_low]

theorem decode_evtWord_of_evt {k : BitVec 4} (h : k ∈ [4#4, 5#4, 6#4, 7#4, 8#4]) :
    decode m (evtWord k) = .ok (evtInstr m k) := by
  have hkind : eventKind (evtWord k) = k := eventKind_eventWord k _ _
  rw [decode_of_evt (by rwa [hkind]), hkind]

/-- A bus transaction nobody claims comes back whole (R90). -/
theorem decode_nopNotmine {kind : BusKind} {a : BitVec 16} (d : Byte) (hok : busWordOk kind a = true)
    (hclaimed : claimed m kind a = false) :
    decode m (eventWord (busKindNumber kind) a d) = .ok (.nopNotmine kind a d) := by
  cases kind with
  | cpuw =>
    show decode m (eventWord 0#4 a d) = _
    rw [decode_of_cpuw (eventKind_eventWord _ a d), eventAddr_eventWord, eventData_eventWord,
      decodeCpuw_of_not_claimed hclaimed]
  | cpur =>
    show decode m (eventWord 1#4 a d) = _
    rw [decode_of_cpur (eventKind_eventWord _ a d), eventAddr_eventWord, eventData_eventWord,
      decodeCpur_of_not_claimed hclaimed]
  | ppuw =>
    show decode m (eventWord 2#4 a d) = _
    have hlt : a.toNat < 0x4000 := Nat.lt_succ_of_le (of_decide_eq_true hok)
    rw [decode_of_ppuw (eventKind_eventWord _ a d), eventAddr_eventWord, eventData_eventWord, if_pos hlt,
      decodePpuw_of_not_pattern hlt (of_decide_eq_false hclaimed)]
  | ppur =>
    show decode m (eventWord 3#4 a d) = _
    have hlt : a.toNat < 0x4000 := Nat.lt_succ_of_le (of_decide_eq_true hok)
    rw [decode_of_ppur (eventKind_eventWord _ a d), eventAddr_eventWord, eventData_eventWord, if_pos hlt,
      decodePpur_of_not_pattern hlt (of_decide_eq_false hclaimed)]

end RoundTrip

/-! ### Words of one register: the decoder's cut of the encoder's byte (R78 to R88) -/

theorem decodeApuWrite_w4008 (control : Bool) (reload : BitVec 7) :
    decodeApuWrite 0x4008#16 (bit control ++ reload) = some (.w4008 control reload) := by
  revert control reload
  decide

theorem decodeApuWrite_w400E (mode : Bool) (pidx : BitVec 4) :
    decodeApuWrite 0x400E#16 (bit mode ++ 0#3 ++ pidx) = some (.w400E mode pidx) := by
  revert mode pidx
  decide

theorem decodeApuWrite_w4015 (noise triangle pulse2 pulse1 : Bool) :
    decodeApuWrite 0x4015#16 (0#4 ++ bit noise ++ bit triangle ++ bit pulse2 ++ bit pulse1) =
      some (.w4015 noise triangle pulse2 pulse1) := by
  revert noise triangle pulse2 pulse1
  decide

theorem decodeApuWrite_w4017 (mode inhibit : Bool) :
    decodeApuWrite 0x4017#16 (bit mode ++ bit inhibit ++ 0#6) = some (.w4017 mode inhibit) := by
  revert mode inhibit
  decide

theorem decodeBankWrite_m1Load (sel : BitVec 2) (rst d : Bool) :
    cartAddr (1#1 ++ sel ++ 0#13) = true ∧
    decodeBankWrite .m1 (1#1 ++ sel ++ 0#13) (bit rst ++ 0#6 ++ bit d) = .m1Load sel rst d := by
  revert sel rst d
  decide

theorem decodeBankWrite_m2Bank (prg : BitVec 4) : decodeBankWrite .m2 0x8000#16 (0#4 ++ prg) = .m2Bank prg := by
  revert prg
  decide

theorem decodeBankWrite_m3Bank (chr : BitVec 2) : decodeBankWrite .m3 0x8000#16 (0#6 ++ chr) = .m3Bank chr := by
  revert chr
  decide

theorem decodeBankWrite_m4Banksel (chrMode prgMode : Bool) (target : BitVec 3) :
    decodeBankWrite .m4 0x8000#16 (bit chrMode ++ bit prgMode ++ 0#3 ++ target) =
      .m4Banksel chrMode prgMode target := by
  revert chrMode prgMode target
  decide

theorem decodeBankWrite_m4Mirror (mirror : Bool) :
    decodeBankWrite .m4 0xA000#16 (0#7 ++ bit mirror) = .m4Mirror mirror := by
  revert mirror
  decide

theorem decodeBankWrite_m7Bank (mirror : Bool) (prg : BitVec 3) :
    decodeBankWrite .m7 0x8000#16 (0#3 ++ bit mirror ++ 0#1 ++ prg) = .m7Bank mirror prg := by
  revert mirror prg
  decide

theorem decodeBankWrite_m66Bank (prg chr : BitVec 2) :
    decodeBankWrite .m66 0x8000#16 (bankPairByte prg chr) = .m66Bank prg chr := by
  simp only [decodeBankWrite, bankPairByte_fields]

theorem decodeSaveWrite_m140Bank (prg chr : BitVec 2) :
    decodeSaveWrite .m140 0x6000#16 (bankPairByte prg chr) = .m140Bank prg chr := by
  simp only [decodeSaveWrite, bankPairByte_fields]

/-! ### The statements -/

/-- Settles O1: an APU register's word by its address, a mapper's word by its range and its row's fields, a read by its
range, and what nobody claims whole. -/
theorem decodeOfEncodeIsTheInstruction : Obligations.DecodeOfEncodeIsTheInstruction := by
  intro m i hwf
  cases i with
  | w4000 | w4004 | w400C =>
    exact decode_cpuwWord_of_apu (by simp only [decodeApuWrite, BitVec.reduceEq, ↓reduceIte, dutyEnvelopeByte_fields])
  | w4001 | w4005 =>
    exact decode_cpuwWord_of_apu (by simp only [decodeApuWrite, BitVec.reduceEq, ↓reduceIte, sweepByte_fields])
  | w4003 | w4007 | w400B | w400F =>
    exact decode_cpuwWord_of_apu (by simp only [decodeApuWrite, BitVec.reduceEq, ↓reduceIte, timerHighByte_fields])
  | w4008 control reload => exact decode_cpuwWord_of_apu (decodeApuWrite_w4008 control reload)
  | w400E mode pidx => exact decode_cpuwWord_of_apu (decodeApuWrite_w400E mode pidx)
  | w4015 noise triangle pulse2 pulse1 => exact decode_cpuwWord_of_apu (decodeApuWrite_w4015 noise triangle pulse2 pulse1)
  | w4017 mode inhibit => exact decode_cpuwWord_of_apu (decodeApuWrite_w4017 mode inhibit)
  | w4002 | w4006 | w4009 | w400A | w400D | w4010 | w4011 | w4012 | w4013 => exact decode_cpuwWord_of_apu rfl
  | r4015 => exact decode_cpurWord m 0x4015#16
  | mclk | reset | ackapu => exact decode_evtWord_of_evt (by decide)
  | scanline | ackmap =>
    obtain rfl := of_decide_eq_true hwf
    exact decode_evtWord_of_evt (by decide)
  | scanlineInert | ackmapInert =>
    exact (decode_evtWord_of_evt (by decide)).trans (congrArg _ (if_neg (of_decide_eq_true hwf)))
  | m4Banksel chrMode prgMode target =>
    obtain rfl := of_decide_eq_true hwf
    exact decode_cpuwWord_of_cart rfl (decodeBankWrite_m4Banksel chrMode prgMode target)
  | m4Mirror mirror =>
    obtain rfl := of_decide_eq_true hwf
    exact decode_cpuwWord_of_cart rfl (decodeBankWrite_m4Mirror mirror)
  | m4Bankdata | m4Ramprot | m4Irqlatch | m4Irqreload | m4Irqdis | m4Irqen =>
    obtain rfl := of_decide_eq_true hwf
    exact decode_cpuwWord_of_cart rfl rfl
  | m1Load sel rst d =>
    obtain rfl := of_decide_eq_true hwf
    obtain ⟨hcart, hload⟩ := decodeBankWrite_m1Load sel rst d
    exact decode_cpuwWord_of_cart hcart hload
  | m2Bank prg =>
    obtain rfl := of_decide_eq_true hwf
    exact decode_cpuwWord_of_cart rfl (decodeBankWrite_m2Bank prg)
  | m3Bank chr =>
    obtain rfl := of_decide_eq_true hwf
    exact decode_cpuwWord_of_cart rfl (decodeBankWrite_m3Bank chr)
  | m7Bank mirror prg =>
    obtain rfl := of_decide_eq_true hwf
    exact decode_cpuwWord_of_cart rfl (decodeBankWrite_m7Bank mirror prg)
  | m66Bank prg chr =>
    obtain rfl := of_decide_eq_true hwf
    exact decode_cpuwWord_of_cart rfl (decodeBankWrite_m66Bank prg chr)
  | m140Bank prg chr =>
    obtain rfl := of_decide_eq_true hwf
    exact (decode_cpuwWord_saveAddrOf 0#13 _).trans (congrArg _ (decodeSaveWrite_m140Bank prg chr))
  | m1Sramw offset d | m4Sramw offset d =>
    obtain rfl := of_decide_eq_true hwf
    refine (decode_cpuwWord_saveAddrOf offset d).trans ?_
    simp only [decodeSaveWrite, saveAddrOf_fields]
  | m1Sramr offset | m4Sramr offset =>
    obtain rfl := of_decide_eq_true hwf
    refine (decode_cpurWord_saveAddrOf offset).trans ?_
    simp only [decodeSaveRead, saveAddrOf_fields]
  | m0Cpur | m1Cpur | m2Cpur | m3Cpur | m4Cpur | m7Cpur =>
    obtain ⟨hm, haddr⟩ := Bool.and_eq_true_iff.1 hwf
    obtain rfl := of_decide_eq_true hm
    exact decode_cpurWord_of_cart haddr
  | m0Ppur | m1Ppur | m2Ppur | m3Ppur | m4Ppur | m7Ppur =>
    obtain ⟨hm, haddr⟩ := Bool.and_eq_true_iff.1 hwf
    obtain rfl := of_decide_eq_true hm
    exact decode_ppurWord_of_pattern haddr
  | m66Cpur =>
    obtain ⟨hm, haddr⟩ := Bool.and_eq_true_iff.1 hwf
    rcases Bool.or_eq_true_iff.1 hm with h66 | h140
    · obtain rfl := of_decide_eq_true h66
      exact decode_cpurWord_of_cart haddr
    · obtain rfl := of_decide_eq_true h140
      exact decode_cpurWord_of_cart haddr
  | m66Ppur =>
    obtain ⟨hm, haddr⟩ := Bool.and_eq_true_iff.1 hwf
    rcases Bool.or_eq_true_iff.1 hm with h66 | h140
    · obtain rfl := of_decide_eq_true h66
      exact decode_ppurWord_of_pattern haddr
    · obtain rfl := of_decide_eq_true h140
      exact decode_ppurWord_of_pattern haddr
  | mapPpuw a d => exact decode_ppuwWord_of_pattern hwf d
  | nopNotmine kind addr data =>
    obtain ⟨hok, hclaimed⟩ := Bool.and_eq_true_iff.1 hwf
    exact decode_nopNotmine data hok (by simpa using hclaimed)

/-- Settles O2: each branch of the decoder gives an operation of its own range and variant. -/
theorem decodedInstructionsAreWellFormed : Obligations.DecodedInstructionsAreWellFormed := by
  intro m w i h
  rcases kind_cases (eventKind w) with hk | hk | hk | hk | hk | hk
  · cases (decode_of_cpuw hk).symm.trans h
    exact decodeCpuw_wellFormed _ _
  · cases (decode_of_cpur hk).symm.trans h
    exact decodeCpur_wellFormed _ _
  · rw [decode_of_ppuw hk] at h
    split at h
    next haddr =>
      cases h
      exact decodePpuw_wellFormed haddr _
    next => cases h
  · rw [decode_of_ppur hk] at h
    split at h
    next haddr =>
      cases h
      exact decodePpur_wellFormed haddr _
    next => cases h
  · cases (decode_of_evt hk).symm.trans h
    exact evtInstr_wellFormed hk
  · cases (decode_of_no_event hk).symm.trans h

/-- Settles O3: the refusals, with the address bits where they stand in the word. -/
theorem decoderRefusesExactlyTheWordsThatAreNoEvent : Obligations.DecoderRefusesExactlyTheWordsThatAreNoEvent := by
  intro m w
  rw [decode_eq_error_iff, refusedWord_iff, ← high_bits_eq_zero_iff, extractLsb'_eventAddr_high]
  rfl

/-- Settles O5: each word's fields are literals, and the decoder computes on them. -/
theorem specWordsDecodeToTheirOperations : Obligations.SpecWordsDecodeToTheirOperations := by
  refine ⟨?_, ?_, ?_, ?_, ?_, ?_, ?_, ?_, ?_, ?_, ?_, ?_⟩ <;> decide

end Sys2Proof
end

section
/-! The opcode table (R94): a row fits a word by its kind and by its address alone; on each variant and kind the rows
left are few, and the first that fits is the one the decoder's branches give. -/

namespace Sys2Proof

/-! ### A row by kind and by address -/

/-- The row exists for the variant and its kind bits fit. -/
def OpcodeRow.fitsKind (r : OpcodeRow) (m : Mapper) (k : BitVec 4) : Bool :=
  r.variants.contains m && k &&& eventKind r.mask == eventKind r.pattern

/-- What is left of a row once its kind fits: its name, and the mask and pattern of its address bits. -/
structure AddrRow where
  mnemonic : String
  mask     : BitVec 16
  pattern  : BitVec 16

def OpcodeRow.addrRow (r : OpcodeRow) : AddrRow := ⟨r.mnemonic, eventAddr r.mask, eventAddr r.pattern⟩

/-- The rows a word of kind `k` can select on `m`, in the table's order. -/
def addrRows (m : Mapper) (k : BitVec 4) : List AddrRow := (opcodeTable.filter (·.fitsKind m k)).map (·.addrRow)

/-- The name of the first row whose address bits fit. -/
def firstFit : List AddrRow → BitVec 16 → Option String
  | [], _ => none
  | r :: rest, a => if a &&& r.mask = r.pattern then some r.mnemonic else firstFit rest a

theorem firstFit_append (rows rest : List AddrRow) (a : BitVec 16) :
    firstFit (rows ++ rest) a = (firstFit rows a).or (firstFit rest a) := by
  induction rows with
  | nil => rfl
  | cons r rows ih =>
    simp only [List.cons_append, firstFit, ih]
    split <;> rfl

theorem firstFit_addrRows (rows : List OpcodeRow) (a : BitVec 16) :
    firstFit (rows.map (·.addrRow)) a =
      (rows.find? fun r => a &&& eventAddr r.mask == eventAddr r.pattern).map (·.mnemonic) := by
  induction rows with
  | nil => rfl
  | cons r rows ih =>
    rw [List.map_cons, firstFit, ih, List.find?_cons]
    cases hfit : (a &&& eventAddr r.mask == eventAddr r.pattern) with
    | true => exact if_pos (beq_iff_eq.1 hfit)
    | false => exact if_neg (beq_eq_false_iff_ne.1 hfit)

theorem eventWord_ext_iff {v w : EventWord} :
    v = w ↔ eventKind v = eventKind w ∧ eventAddr v = eventAddr w ∧ eventData v = eventData w := by
  constructor
  · rintro rfl
    exact ⟨rfl, rfl, rfl⟩
  · rintro ⟨hkind, haddr, hdata⟩
    rw [← eventWord_fields v, ← eventWord_fields w, hkind, haddr, hdata]

/-- No row looks at the data. -/
theorem opcodeTable_data : ∀ r ∈ opcodeTable, eventData r.mask = 0#8 ∧ eventData r.pattern = 0#8 := by
  decide

theorem selects_eq {r : OpcodeRow} (hr : r ∈ opcodeTable) (m : Mapper) (w : EventWord) :
    r.selects m w = (r.fitsKind m (eventKind w) && eventAddr w &&& eventAddr r.mask == eventAddr r.pattern) := by
  obtain ⟨hmask, hpattern⟩ := opcodeTable_data r hr
  have hdata : eventData (w &&& r.mask) = eventData r.pattern := by
    rw [eventData, BitVec.extractLsb'_and, ← eventData, ← eventData, hmask, hpattern, BitVec.and_zero]
  rw [Bool.eq_iff_iff]
  simp only [OpcodeRow.selects, OpcodeRow.fitsKind, Bool.and_eq_true, beq_iff_eq,
    eventWord_ext_iff (v := w &&& r.mask), hdata, and_true, and_assoc, eventKind, eventAddr, BitVec.extractLsb'_and]

theorem tableSelect_eq {m : Mapper} {w : EventWord} (h : refusedWord w = false) :
    tableSelect m w = firstFit (addrRows m (eventKind w)) (eventAddr w) := by
  rw [tableSelect, h, if_neg Bool.false_ne_true, addrRows, firstFit_addrRows, List.find?_filter]
  congr 1
  refine List.find?_congr fun r hr => ?_
  rw [selects_eq hr, Bool.decide_and, Bool.decide_eq_true, Bool.decide_eq_true]

/-! ### Address masks -/

/-- A mask of the high bits keeps the high field. -/
theorem and_highMask {n l : Nat} (a : BitVec (n + l)) :
    a &&& (BitVec.allOnes n ++ 0#l) = a.extractLsb' l n ++ 0#l := by
  refine BitVec.eq_of_getLsbD_eq fun i hi => ?_
  rw [BitVec.getLsbD_and, BitVec.getLsbD_append, BitVec.getLsbD_append, BitVec.getLsbD_extractLsb']
  split
  · simp
  · simp [show i - l < n by omega, show l + (i - l) = i by omega]

theorem and_cartMask_eq_iff (a : CpuAddr) : a &&& 0x8000#16 = 0x8000#16 ↔ cartAddr a = true := by
  have hmask : a &&& 0x8000#16 = (a.extractLsb' 15 1 ++ 0#15 : BitVec (1 + 15)) := and_highMask (n := 1) (l := 15) a
  rw [hmask, show 0x8000#16 = (1#1 ++ 0#15 : BitVec (1 + 15)) by rfl, BitVec.append_left_inj, cartAddr_iff,
    BitVec.toNat_eq, BitVec.extractLsb'_toNat, Nat.shiftRight_eq_div_pow]
  have := a.isLt
  simp
  omega

theorem regionMask_eq (a : BitVec 16) : a &&& 0xE000#16 = (a.extractLsb' 13 3 ++ 0#13 : BitVec (3 + 13)) :=
  and_highMask (n := 3) (l := 13) a

theorem and_saveMask_eq_iff (a : CpuAddr) : a &&& 0xE000#16 = 0x6000#16 ↔ saveAddr a = true := by
  rw [regionMask_eq, show 0x6000#16 = (3#3 ++ 0#13 : BitVec (3 + 13)) by rfl, BitVec.append_left_inj,
    saveAddr_iff_bits, decide_eq_true_iff]

theorem and_patternMask_eq_iff (a : BitVec 16) : a &&& 0xE000#16 = 0#16 ↔ a.toNat < 0x2000 := by
  rw [regionMask_eq, show 0#16 = (0#3 ++ 0#13 : BitVec (3 + 13)) by rfl, BitVec.append_left_inj, BitVec.toNat_eq,
    toNat_extractLsb'_high3]
  simp

/-- Mapper 4's port takes the three high bits and bit 0 (R88). -/
theorem portMask_eq (a : CpuAddr) :
    a &&& 0xE001#16 = (a.extractLsb' 13 3 ++ 0#12 ++ a.extractLsb' 0 1 : BitVec (3 + 12 + 1)) := by
  refine BitVec.eq_of_getLsbD_eq fun i hi => ?_
  have hmask : ∀ j < 16, (0xE001#16).getLsbD j = decide (j = 0 ∨ 13 ≤ j) := by decide
  rw [BitVec.getLsbD_and, hmask i hi, BitVec.getLsbD_append, BitVec.getLsbD_append, BitVec.getLsbD_extractLsb',
    BitVec.getLsbD_extractLsb']
  split
  next hlow => simp [show i = 0 by omega]
  next hlow =>
    split
    next hmid => simp [show ¬ (i = 0 ∨ 13 ≤ i) by omega]
    next hmid => simp [show i = 0 ∨ 13 ≤ i by omega, show i - 1 - 12 < 3 by omega, show 13 + (i - 1 - 12) = i by omega]

/-- The port's slot is the low part of the three high bits. -/
theorem extractLsb'_slot (a : CpuAddr) : a.extractLsb' 13 2 = (a.extractLsb' 13 3).extractLsb' 0 2 := by
  refine BitVec.eq_of_getLsbD_eq fun i hi => ?_
  simp [hi, show i < 3 by omega]

/-! ### Rows of each kind -/

/-- The catch-all row at the table's end (R90). -/
def nopRow : AddrRow := ⟨"NOP.NOTMINE", 0#16, 0#16⟩

/-- The rows of mapper 4's port (R88). -/
def portRows : List AddrRow :=
  [⟨"M4.BANKSEL", 0xE001#16, 0x8000#16⟩, ⟨"M4.BANKDATA", 0xE001#16, 0x8001#16⟩,
   ⟨"M4.MIRROR", 0xE001#16, 0xA000#16⟩, ⟨"M4.RAMPROT", 0xE001#16, 0xA001#16⟩,
   ⟨"M4.IRQLATCH", 0xE001#16, 0xC000#16⟩, ⟨"M4.IRQRELOAD", 0xE001#16, 0xC001#16⟩,
   ⟨"M4.IRQDIS", 0xE001#16, 0xE000#16⟩, ⟨"M4.IRQEN", 0xE001#16, 0xE001#16⟩]

/-- The rows of kind 0 above the APU's registers. -/
def upperWriteRows : Mapper → List AddrRow
  | .m0 => [nopRow]
  | .m1 => [⟨"M1.LOAD", 0x8000#16, 0x8000#16⟩, ⟨"M1.SRAMW", 0xE000#16, 0x6000#16⟩, nopRow]
  | .m2 => [⟨"M2.BANK", 0x8000#16, 0x8000#16⟩, nopRow]
  | .m3 => [⟨"M3.BANK", 0x8000#16, 0x8000#16⟩, nopRow]
  | .m4 => portRows ++ [⟨"M4.SRAMW", 0xE000#16, 0x6000#16⟩, nopRow]
  | .m7 => [⟨"M7.BANK", 0x8000#16, 0x8000#16⟩, nopRow]
  | .m66 => [⟨"M66.BANK", 0x8000#16, 0x8000#16⟩, nopRow]
  | .m140 => [⟨"M140.BANK", 0xE000#16, 0x6000#16⟩, nopRow]

theorem addrRows_cpuw (m : Mapper) : addrRows m 0#4 = apuWriteRows.map (·.addrRow) ++ upperWriteRows m := by
  cases m <;> rfl

/-- The status register, then the save memory where the variant has it, then the program storage. -/
theorem addrRows_cpur (m : Mapper) (a : CpuAddr) (d : Byte) : addrRows m 1#4 =
    ⟨"R4015", 0xFFFF#16, 0x4015#16⟩ ::
      ((if m.hasSram then [⟨(decodeSaveRead m a d).mnemonic, 0xE000#16, 0x6000#16⟩] else []) ++
        [⟨(decodeCartRead m a).mnemonic, 0x8000#16, 0x8000#16⟩, nopRow]) := by
  cases m <;> rfl

theorem addrRows_ppuw (m : Mapper) : addrRows m 2#4 = [⟨"MAP.PPUW", 0xE000#16, 0#16⟩, nopRow] := by
  cases m <;> rfl

theorem addrRows_ppur (m : Mapper) (a : PpuAddr) :
    addrRows m 3#4 = [⟨(decodePatternRead m a).mnemonic, 0xE000#16, 0#16⟩, nopRow] := by
  cases m <;> rfl

theorem addrRows_evt (m : Mapper) {k : BitVec 4} (h : k ∈ [4#4, 5#4, 6#4, 7#4, 8#4]) :
    addrRows m k = [⟨(evtInstr m k).mnemonic, 0#16, 0#16⟩, nopRow] := by
  fin_cases h <;> cases m <;> rfl

/-! ### The first row that fits -/

theorem firstFit_nopRow (a : BitVec 16) : firstFit [nopRow] a = some "NOP.NOTMINE" :=
  if_pos BitVec.and_zero

theorem firstFit_apuWriteRows (a : CpuAddr) (d : Byte) :
    firstFit (apuWriteRows.map (·.addrRow)) a = (decodeApuWrite a d).map (·.mnemonic) := by
  cases hapu : apuWriteAddr a with
  | true =>
    obtain ⟨r, hr, rfl⟩ := exists_apuWriteRow hapu
    obtain ⟨i, hi, hname⟩ := decodeApuWrite_of_row hr d
    have hfirst : ∀ r ∈ apuWriteRows,
        firstFit (apuWriteRows.map (·.addrRow)) (eventAddr r.pattern) = some r.mnemonic := by decide
    rw [hi, Option.map_some, hname, hfirst r hr]
  | false =>
    have hrow : ∀ r ∈ apuWriteRows, eventAddr r.mask = BitVec.allOnes 16 ∧ apuWriteAddr (eventAddr r.pattern) = true := by
      decide
    rw [decodeApuWrite_eq_none a d hapu, firstFit_addrRows, Option.map_none, Option.map_eq_none_iff, List.find?_eq_none]
    intro r hr hfit
    obtain ⟨hmask, haddr⟩ := hrow r hr
    rw [hmask, BitVec.and_allOnes, beq_iff_eq] at hfit
    rw [← hfit, hapu] at haddr
    cases haddr

/-- The mnemonic of a port write does not depend on the data. -/
theorem decodeM4Write_mnemonic (a : CpuAddr) (d : Byte) :
    (decodeM4Write a d).mnemonic = (decodeM4Write a 0#8).mnemonic := by
  unfold decodeM4Write
  split_ifs <;> rfl

theorem firstFit_portRows {a : CpuAddr} (h : cartAddr a = true) (d : Byte) :
    firstFit portRows a = some (decodeM4Write a d).mnemonic := by
  have hlow : a.getLsbD 0 = (a.extractLsb' 0 1).getLsbD 0 := by simp
  have hhigh : (a.extractLsb' 13 3).getLsbD 2 = true := by
    rw [cartAddr_iff_bit] at h
    simpa using h
  rw [decodeM4Write_mnemonic, decodeM4Write, extractLsb'_slot, hlow]
  simp only [firstFit, portRows, portMask_eq]
  generalize a.extractLsb' 13 3 = high at hhigh
  generalize a.extractLsb' 0 1 = low
  revert high low
  decide

theorem firstFit_upperWriteRows_of_cart {m : Mapper} {a : CpuAddr} (h : cartAddr a = true) (d : Byte) :
    firstFit (upperWriteRows m) a = some (decodeBankWrite m a d).mnemonic := by
  have hsave := saveAddr_of_cart h
  cases m with
  | m4 =>
    rw [upperWriteRows, firstFit_append, firstFit_portRows h d]
    rfl
  | _ => simp [upperWriteRows, firstFit, nopRow, and_cartMask_eq_iff, and_saveMask_eq_iff, h, hsave, decodeBankWrite,
      Instr.mnemonic]

/-- Below the port there is no port row. -/
theorem firstFit_portRows_of_not_cart {a : CpuAddr} (h : cartAddr a = false) : firstFit portRows a = none := by
  have hhigh : (a.extractLsb' 13 3).getLsbD 2 = false := by
    rw [cartAddr_iff_bit] at h
    simpa using h
  simp only [firstFit, portRows, portMask_eq]
  generalize a.extractLsb' 13 3 = high at hhigh
  generalize a.extractLsb' 0 1 = low
  revert high low
  decide

theorem firstFit_upperWriteRows_of_save {m : Mapper} {a : CpuAddr} (h : saveAddr a = true) (d : Byte) :
    firstFit (upperWriteRows m) a = some (decodeSaveWrite m a d).mnemonic := by
  have hcart := cartAddr_of_saveAddr h
  cases m with
  | m4 =>
    rw [upperWriteRows, firstFit_append, firstFit_portRows_of_not_cart hcart]
    exact if_pos ((and_saveMask_eq_iff a).2 h)
  | _ => simp [upperWriteRows, firstFit, nopRow, and_cartMask_eq_iff, and_saveMask_eq_iff, h, hcart, decodeSaveWrite,
      Instr.mnemonic]

theorem firstFit_upperWriteRows_of_low {m : Mapper} {a : CpuAddr} (hcart : cartAddr a = false)
    (hsave : saveAddr a = false) : firstFit (upperWriteRows m) a = some "NOP.NOTMINE" := by
  cases m <;> simp [upperWriteRows, firstFit_append, firstFit_portRows_of_not_cart hcart, firstFit, nopRow,
    and_cartMask_eq_iff, and_saveMask_eq_iff, hcart, hsave]

theorem firstFit_cpuw (m : Mapper) (a : CpuAddr) (d : Byte) :
    firstFit (addrRows m 0#4) a = some (decodeCpuw m a d).mnemonic := by
  rw [addrRows_cpuw, firstFit_append, firstFit_apuWriteRows a d]
  cases hc : cartAddr a with
  | true =>
    rw [decodeCpuw_of_cart hc, decodeApuWrite_eq_none a d (apuWriteAddr_of_cart hc),
      firstFit_upperWriteRows_of_cart hc d]
    rfl
  | false =>
    cases hs : saveAddr a with
    | true =>
      rw [decodeCpuw_of_save hs, decodeApuWrite_eq_none a d (apuWriteAddr_of_save hs),
        firstFit_upperWriteRows_of_save hs d]
      rfl
    | false =>
      rw [decodeCpuw_of_low hc hs, firstFit_upperWriteRows_of_low hc hs]
      cases decodeApuWrite a d <;> rfl

theorem firstFit_cpur (m : Mapper) (a : CpuAddr) (d : Byte) :
    firstFit (addrRows m 1#4) a = some (decodeCpur m a d).mnemonic := by
  have hstatus : a &&& 0xFFFF#16 = a := BitVec.and_allOnes
  rw [addrRows_cpur m a d]
  cases hc : cartAddr a with
  | true =>
    have hne : a ≠ 0x4015#16 := by
      rintro rfl
      exact absurd hc (by decide)
    have hsave := saveAddr_of_cart hc
    rw [decodeCpur_of_cart hc]
    cases m.hasSram <;>
      simp [firstFit, hstatus, hne, and_cartMask_eq_iff, and_saveMask_eq_iff, hc, hsave]
  | false =>
    cases hs : saveAddr a with
    | true =>
      have hne : a ≠ 0x4015#16 := by
        rintro rfl
        exact absurd hs (by decide)
      rw [decodeCpur_of_save hs]
      cases hsram : m.hasSram with
      | true => simp [firstFit, hstatus, hne, and_saveMask_eq_iff, hs]
      | false =>
        simp [firstFit, hstatus, hne, and_cartMask_eq_iff, hc, nopRow, decodeSaveRead_of_not_hasSram hsram,
          Instr.mnemonic]
    | false =>
      rw [decodeCpur_of_low hc hs]
      by_cases hne : a = 0x4015#16
      · simp [firstFit, hne, Instr.mnemonic]
      · cases m.hasSram <;>
          simp [firstFit, hstatus, hne, and_cartMask_eq_iff, and_saveMask_eq_iff, hc, hs, nopRow, Instr.mnemonic]

theorem firstFit_ppuw {m : Mapper} {a : BitVec 16} (h : a.toNat < 0x4000) (d : Byte) :
    firstFit (addrRows m 2#4) a = some (decodePpuw a d).mnemonic := by
  rw [addrRows_ppuw]
  by_cases hpattern : a.toNat < 0x2000
  · rw [decodePpuw_of_pattern hpattern]
    exact if_pos ((and_patternMask_eq_iff a).2 hpattern)
  · rw [decodePpuw_of_not_pattern h hpattern]
    exact (if_neg (mt (and_patternMask_eq_iff a).1 hpattern)).trans (firstFit_nopRow a)

theorem firstFit_ppur {m : Mapper} {a : BitVec 16} (h : a.toNat < 0x4000) (d : Byte) :
    firstFit (addrRows m 3#4) a = some (decodePpur m a d).mnemonic := by
  rw [addrRows_ppur m (a.extractLsb' 0 14)]
  by_cases hpattern : a.toNat < 0x2000
  · rw [decodePpur_of_pattern hpattern]
    exact if_pos ((and_patternMask_eq_iff a).2 hpattern)
  · rw [decodePpur_of_not_pattern h hpattern]
    exact (if_neg (mt (and_patternMask_eq_iff a).1 hpattern)).trans (firstFit_nopRow a)

theorem firstFit_evt (m : Mapper) {k : BitVec 4} (h : k ∈ [4#4, 5#4, 6#4, 7#4, 8#4]) (a : BitVec 16) :
    firstFit (addrRows m k) a = some (evtInstr m k).mnemonic := by
  rw [addrRows_evt m h]
  exact if_pos BitVec.and_zero

/-- A word that decodes selects the row of its operation. -/
theorem tableSelect_of_decode_ok {m : Mapper} {w : EventWord} {i : Instr} (h : decode m w = .ok i) :
    tableSelect m w = some i.mnemonic := by
  have haccepted : refusedWord w = false := by
    rw [← Bool.not_eq_true, ← decode_eq_error_iff m, h]
    rintro ⟨e, he⟩
    cases he
  rw [tableSelect_eq haccepted]
  rcases kind_cases (eventKind w) with hk | hk | hk | hk | hk | hk
  · cases (decode_of_cpuw hk).symm.trans h
    rw [hk]
    exact firstFit_cpuw m _ _
  · cases (decode_of_cpur hk).symm.trans h
    rw [hk]
    exact firstFit_cpur m _ _
  · rw [decode_of_ppuw hk] at h
    split at h
    next haddr =>
      cases h
      rw [hk]
      exact firstFit_ppuw haddr _
    next => cases h
  · rw [decode_of_ppur hk] at h
    split at h
    next haddr =>
      cases h
      rw [hk]
      exact firstFit_ppur haddr _
    next => cases h
  · cases (decode_of_evt hk).symm.trans h
    exact firstFit_evt m hk _
  · cases (decode_of_no_event hk).symm.trans h

/-! ### The statement -/

/-- Settles O4: a word that decodes selects its operation's row, and a refused word selects none. -/
theorem decoderSelectsTheFirstMatchingTableRow : Obligations.DecoderSelectsTheFirstMatchingTableRow := by
  intro m w
  cases h : decode m w with
  | ok i => exact (tableSelect_of_decode_ok h).symm
  | error e => rw [tableSelect, (decode_eq_error_iff m w).1 ⟨e, h⟩, if_pos rfl]

end Sys2Proof
end

section
/-! The volume envelope and the sweep unit (R127, R130, R136 to R139) and the frame pulses that clock them (R180, R181):
the envelope's level as a function of the number of pulses, the sweep's target as a number, its clock as one record, and
the statements read off them. -/

namespace Sys2Proof.Machine

/-! ### Envelope: one clock -/

theorem Envelope.clock_of_restart {e : Envelope} (h : e.restartPending = true) :
    e.clock =
      { e with restartPending := false, counter := 15, divider := { e.divider with counter := e.divider.period } } :=
  if_pos h

theorem Envelope.clock_of_not_restart {e : Envelope} (h : e.restartPending = false) :
    e.clock = { e with
      divider := e.divider.clock.1
      counter := if e.divider.clock.2 then decayLevel e.loop e.counter else e.counter } :=
  if_neg (by simp [h])

/-- Above zero the divider counts and the level is kept. -/
theorem Envelope.clock_of_ne {e : Envelope} (h : e.restartPending = false) (hne : e.divider.counter ≠ 0) :
    e.clock = { e with divider := { e.divider with counter := e.divider.counter - 1 } } := by
  rw [Envelope.clock_of_not_restart h, Divider.clock_of_ne hne]
  rfl

/-- At zero the divider fires: it reloads and the level decays. -/
theorem Envelope.clock_of_zero {e : Envelope} (h : e.restartPending = false) (hzero : e.divider.counter = 0) :
    e.clock = { e with
      divider := { e.divider with counter := e.divider.period }
      counter := decayLevel e.loop e.counter } := by
  rw [Envelope.clock_of_not_restart h, Divider.clock_of_zero hzero]
  rfl

theorem decayLevel_eq (loop : Bool) (level : BitVec 4) :
    decayLevel loop level =
      if 0 < level.toNat then BitVec.ofNat 4 (level.toNat - 1) else if loop then 15 else 0 := by
  revert loop level
  decide

/-! ### Envelope: the decay rate -/

/-- The level after a number of fires from 15: it stays at 0, or goes round in 16 fires with `loop` (R130). -/
def levelAfter (loop : Bool) (fires : Nat) : Nat := 15 - (if loop then fires % 16 else fires)

/-- One more fire is one more decay. -/
theorem decayLevel_levelAfter (loop : Bool) (fires : Nat) :
    decayLevel loop (BitVec.ofNat 4 (levelAfter loop fires)) = BitVec.ofNat 4 (levelAfter loop (fires + 1)) := by
  have hval : (BitVec.ofNat 4 (levelAfter loop fires)).toNat = levelAfter loop fires := by
    rw [BitVec.toNat_ofNat, Nat.mod_eq_of_lt]
    unfold levelAfter
    omega
  rw [decayLevel_eq, hval]
  unfold levelAfter
  cases loop with
  | false =>
    simp only [Bool.false_eq_true, ↓reduceIte]
    split
    · rw [Nat.sub_sub]
    · rw [show 15 - (fires + 1) = 0 by omega]
      rfl
  | true =>
    simp only [↓reduceIte]
    split
    · congr 1
      omega
    · rw [show 15 - (fires + 1) % 16 = 15 by omega]
      rfl

/-- The envelope `n` pulses after its restart was taken: where the divider stands, and the level its fires have left. -/
def Envelope.afterPulses (e : Envelope) (n : Nat) : Envelope :=
  { e with
    divider := { e.divider with counter := BitVec.ofNat 4 (e.divider.period.toNat - n % (e.divider.period.toNat + 1)) }
    counter := BitVec.ofNat 4 (levelAfter e.loop (n / (e.divider.period.toNat + 1))) }

/-- The divider counts a round of `period + 1` pulses and fires at the end of each (R102). -/
theorem Envelope.clock_afterPulses {e : Envelope} (h : e.restartPending = false) (n : Nat) :
    (e.afterPulses n).clock = e.afterPulses (n + 1) := by
  have hround : n % (e.divider.period.toNat + 1) < e.divider.period.toNat + 1 := Nat.mod_lt _ (by omega)
  rcases Nat.lt_or_eq_of_le (Nat.le_of_lt_succ hround) with hlt | hlast
  · have hcount := e.divider.clock_ofNat_sub e.divider.period hlt
    have hmod : (n + 1) % (e.divider.period.toNat + 1) = n % (e.divider.period.toNat + 1) + 1 := by
      rw [Nat.add_mod, Nat.one_mod_eq_one.2 (by omega), Nat.mod_eq_of_lt (by omega)]
    have hdiv : (n + 1) / (e.divider.period.toNat + 1) = n / (e.divider.period.toNat + 1) := by
      rw [Nat.succ_div, if_neg (by rw [Nat.dvd_iff_mod_eq_zero]; omega), Nat.add_zero]
    rw [Envelope.clock_of_not_restart (by exact h)]
    simp only [Envelope.afterPulses, hcount, hmod, hdiv, Bool.false_eq_true, ↓reduceIte]
  · have hdvd : e.divider.period.toNat + 1 ∣ n + 1 := by
      have hrounds := Nat.div_add_mod n (e.divider.period.toNat + 1)
      exact ⟨n / (e.divider.period.toNat + 1) + 1, by rw [Nat.mul_succ]; omega⟩
    rw [Envelope.clock_of_zero (by exact h) (by simp [Envelope.afterPulses, hlast])]
    simp only [Envelope.afterPulses, decayLevel_levelAfter, Nat.succ_div, if_pos hdvd, Nat.dvd_iff_mod_eq_zero.1 hdvd,
      Nat.sub_zero, BitVec.ofNat_toNat, BitVec.setWidth_eq]

theorem Envelope.iterate_clock_afterPulses {e : Envelope} (h : e.restartPending = false) (n : Nat) :
    Envelope.clock^[n] (e.afterPulses 0) = e.afterPulses n := by
  induction n with
  | zero => rfl
  | succ n ih => rw [Function.iterate_succ_apply', ih, Envelope.clock_afterPulses h]

/-- The pulse that takes the restart starts the count of pulses. -/
theorem Envelope.clock_eq_afterPulses_zero {e : Envelope} (h : e.restartPending = true) :
    e.clock = Envelope.afterPulses { e with restartPending := false } 0 := by
  rw [Envelope.clock_of_restart h]
  simp [Envelope.afterPulses, levelAfter]

/-! ### Sweep: the target -/

/-- A target that is a number of 12 bits is stored as it is. -/
theorem Sweep.recompute_target_of_nonneg {adj : OnesAdj} {w : Sweep} {p : BitVec 11} {t : Nat}
    (ht : sweepTarget adj w p = t) (hlt : t < 4096) : (w.recompute adj p).targetPeriod.toNat = t := by
  show (BitVec.ofInt 12 (sweepTarget adj w p)).toNat = t
  rw [ht, BitVec.ofInt_natCast, BitVec.toNat_ofNat, Nat.mod_eq_of_lt hlt]

section Target

variable (adj : OnesAdj) (w : Sweep) (p : BitVec 11)

/-- The shifted period of R136. -/
def Sweep.shifted : Nat := p.toNat / 2 ^ w.shiftCount.toNat

theorem Sweep.shifted_le : w.shifted p ≤ p.toNat := Nat.div_le_self _ _

/-- The formula of R136, with the shift as a division. -/
theorem sweepTarget_eq : sweepTarget adj w p =
    if w.negate then (p.toNat : Int) - (w.shifted p - onesAdjustment adj w.usesOnesComplement)
    else (p.toNat : Int) + w.shifted p := by
  unfold sweepTarget
  rw [Nat.shiftRight_eq_div_pow]
  rfl

end Target

section TargetCases

variable {adj : OnesAdj} {w : Sweep} {p : BitVec 11}

theorem Sweep.recompute_target_up (h : w.negate = false) :
    (w.recompute adj p).targetPeriod.toNat = p.toNat + w.shifted p := by
  have := w.shifted_le p
  have := p.isLt
  refine Sweep.recompute_target_of_nonneg ?_ (by omega)
  simp [sweepTarget_eq, h]

theorem Sweep.recompute_target_down (h : w.negate = true) (hones : w.usesOnesComplement = false) :
    (w.recompute adj p).targetPeriod.toNat = p.toNat - w.shifted p := by
  have := w.shifted_le p
  have := p.isLt
  refine Sweep.recompute_target_of_nonneg ?_ (by omega)
  simp [sweepTarget_eq, h, hones, onesAdjustment]
  omega

theorem Sweep.recompute_target_plus (h : w.negate = true) (hones : w.usesOnesComplement = true) :
    (w.recompute .plus p).targetPeriod.toNat = p.toNat - w.shifted p + 1 := by
  have := w.shifted_le p
  have := p.isLt
  refine Sweep.recompute_target_of_nonneg ?_ (by omega)
  simp [sweepTarget_eq, h, hones, onesAdjustment]
  omega

/-- The one negative target, -1, is stored as 4095 (R136). -/
theorem Sweep.recompute_target_minus (h : w.negate = true) (hones : w.usesOnesComplement = true) :
    (w.recompute .minus p).targetPeriod.toNat =
      if w.shifted p < p.toNat then p.toNat - w.shifted p - 1 else 4095 := by
  have := w.shifted_le p
  have := p.isLt
  have htarget : sweepTarget .minus w p = (p.toNat : Int) - w.shifted p - 1 := by
    simp [sweepTarget_eq, h, hones, onesAdjustment]
    omega
  split
  · exact Sweep.recompute_target_of_nonneg (by omega) (by omega)
  · show (BitVec.ofInt 12 (sweepTarget .minus w p)).toNat = 4095
    rw [htarget, show (p.toNat : Int) - w.shifted p - 1 = -1 by omega]
    rfl

/-- At +1 a target fits 12 bits below 4095, negating or not (R136). -/
theorem Sweep.recompute_target_le : (w.recompute .plus p).targetPeriod.toNat ≤ 4094 := by
  have := w.shifted_le p
  have := p.isLt
  cases hneg : w.negate with
  | false =>
    rw [Sweep.recompute_target_up hneg]
    omega
  | true =>
    cases hones : w.usesOnesComplement with
    | false =>
      rw [Sweep.recompute_target_down hneg hones]
      omega
    | true =>
      rw [Sweep.recompute_target_plus hneg hones]
      omega

/-- At +1 a negating target fits the period: only the largest period could carry, and its shifted part is not zero. -/
theorem Sweep.recompute_target_le_of_negate (hneg : w.negate = true) :
    (w.recompute .plus p).targetPeriod.toNat ≤ 0x7FF := by
  have hshift : p.toNat / 2 ^ 7 ≤ w.shifted p :=
    Nat.div_le_div_left (Nat.pow_le_pow_right (by decide) (Nat.le_of_lt_succ w.shiftCount.isLt)) (Nat.two_pow_pos _)
  have := p.isLt
  cases hones : w.usesOnesComplement with
  | false =>
    rw [Sweep.recompute_target_down hneg hones]
    omega
  | true =>
    rw [Sweep.recompute_target_plus hneg hones]
    omega

theorem Sweep.recompute_silenced :
    (w.recompute adj p).silenced = true ↔ p.toNat < 8 ∨ 0x7FF < (w.recompute adj p).targetPeriod.toNat := by
  simp [Sweep.recompute]

end TargetCases

/-! ### Sweep: the clock -/

/-- A target is applied when the unit is enabled, has a shift and is not silenced (R139). -/
theorem Pulse.applySweep_eq (p : Pulse) : p.applySweep =
    { p with
      timer := { p.timer with
        period :=
          if p.sweep.enabled = true ∧ p.sweep.shiftCount ≠ 0 ∧ p.sweep.silenced = false then
            BitVec.ofNat 11 p.sweep.targetPeriod.toNat
          else p.timer.period } } := by
  have hgate : (p.sweep.enabled && p.sweep.shiftCount != 0 && !p.sweep.silenced) = true ↔
      p.sweep.enabled = true ∧ p.sweep.shiftCount ≠ 0 ∧ p.sweep.silenced = false := by
    simp [and_assoc]
  unfold Pulse.applySweep
  rw [if_congr hgate rfl rfl, BitVec.ofNat_toNat]
  split <;> rfl

/-- The divider reloads on a pending reload and at zero; a target is applied when it was at zero (R138). -/
theorem Pulse.clockSweepDivider_eq (p : Pulse) : p.clockSweepDivider =
    { p with
      timer := { p.timer with
        period :=
          if p.sweep.divider.counter = 0 ∧ p.sweep.enabled = true ∧ p.sweep.shiftCount ≠ 0 ∧ p.sweep.silenced = false
          then BitVec.ofNat 11 p.sweep.targetPeriod.toNat
          else p.timer.period }
      sweep := { p.sweep with
        reloadPending := false
        divider := { p.sweep.divider with
          counter :=
            if p.sweep.reloadPending = true ∨ p.sweep.divider.counter = 0 then p.sweep.divider.period
            else p.sweep.divider.counter - 1 } } } := by
  unfold Pulse.clockSweepDivider
  cases hreload : p.sweep.reloadPending with
  | true =>
    by_cases hzero : p.sweep.divider.counter = 0#3
    · cases henabled : p.sweep.enabled <;> simp [hzero, henabled, Pulse.applySweep_eq, Divider.resetCounter]
    · simp [hzero, Divider.resetCounter]
  | false =>
    by_cases hzero : p.sweep.divider.counter = 0#3
    · cases henabled : p.sweep.enabled <;>
        simp [Divider.clock_of_zero hzero, hzero, hreload, henabled, Pulse.applySweep_eq]
    · simp [Divider.clock_of_ne hzero, hzero, hreload]

/-- The recompute comes first, then the divider (R138). -/
theorem Pulse.clockSweep_eq (adj : OnesAdj) (p : Pulse) :
    let w := p.sweep.recompute adj p.timer.period
    p.clockSweep adj = { p with
      timer := { p.timer with
        period :=
          if w.divider.counter = 0 ∧ w.enabled = true ∧ w.shiftCount ≠ 0 ∧ w.silenced = false then
            BitVec.ofNat 11 w.targetPeriod.toNat
          else p.timer.period }
      sweep := { w with
        reloadPending := false
        divider := { w.divider with
          counter :=
            if w.reloadPending = true ∨ w.divider.counter = 0 then w.divider.period
            else w.divider.counter - 1 } } } :=
  Pulse.clockSweepDivider_eq (p.recomputeSweep adj)

/-- The sweep's clock does not look at the length counter, which the half-frame pulse clocks first (R181). -/
theorem Pulse.halfFrame_eq (adj : OnesAdj) (p : Pulse) :
    p.halfFrame adj = { p.clockSweep adj with len := p.len.clock } := by
  rw [Pulse.halfFrame, Pulse.clockSweep_eq, Pulse.clockSweep_eq]

/-! ### The statements -/

/-- Settles O36: the three cases of a clock, the fired level as a number. -/
theorem envelopeClockRestartsDecaysAndLoops : Obligations.EnvelopeClockRestartsDecaysAndLoops := by
  intro e
  refine ⟨Envelope.clock_of_restart, Envelope.clock_of_ne, fun h hzero => ?_⟩
  rw [Envelope.clock_of_zero h hzero, decayLevel_eq]

/-- Settles O37: the pulse after the restart leaves a full divider, and each round of the divider is one fire. -/
theorem envelopeDecaysOnceEveryLevelPlusOnePulses : Obligations.EnvelopeDecaysOnceEveryLevelPlusOnePulses := by
  intro e n hrestart hlevel fires
  rw [Nat.add_comm, Function.iterate_succ_apply, Envelope.clock_eq_afterPulses_zero hrestart,
    Envelope.iterate_clock_afterPulses rfl]
  show BitVec.ofNat 4 (levelAfter e.loop (n / (e.divider.period.toNat + 1))) = _
  rw [hlevel]
  rfl

/-- Settles O38: the formula's cases by the negation and the adjustment, its bounds, and the gate. -/
theorem sweepTargetFollowsTheFormulaAndGates : Obligations.SweepTargetFollowsTheFormulaAndGates := by
  intro adj w p shifted r
  refine ⟨Sweep.recompute_target_up, Sweep.recompute_target_down, ?plus, ?minus, ?bound, ?boundNegate, ?storedMinusOne,
    Sweep.recompute_silenced, rfl⟩
  case plus =>
    rintro hneg hones rfl
    exact Sweep.recompute_target_plus hneg hones
  case minus =>
    rintro hneg hones rfl
    exact Sweep.recompute_target_minus hneg hones
  case bound =>
    rintro rfl
    exact Sweep.recompute_target_le
  case boundNegate =>
    rintro rfl hneg
    exact Sweep.recompute_target_le_of_negate hneg
  case storedMinusOne =>
    intro hstored
    exact Sweep.recompute_silenced.2 (.inr (lt_of_lt_of_eq (by decide) hstored.symm))

/-- Settles O39: a target that is not silenced fits the period; the clock is the recompute and the divider's cases. -/
theorem sweepClockRecomputesThenApplies : Obligations.SweepClockRecomputesThenApplies := by
  intro adj p w applies
  refine ⟨fun ⟨_, _, _, hsilenced⟩ => ?_, Pulse.clockSweep_eq adj p⟩
  have hgate := mt Sweep.recompute_silenced.2 (ne_true_of_eq_false hsilenced)
  exact Nat.le_of_not_lt fun hlarge => hgate (.inr hlarge)

/-- Settles O30: the quarter-frame pulse is its definition; the half-frame pulse clocks the length counter first, which
the sweep unit does not look at. -/
theorem framePulsesClockTheirUnits : Obligations.FramePulsesClockTheirUnits := by
  intro adj a
  refine ⟨rfl, ?_⟩
  rw [Apu.halfFrame, Pulse.halfFrame_eq, Pulse.halfFrame_eq]

end Sys2Proof.Machine
end

section
/-! The clock over many cycles: the master clock's division of the cycle rate from any phase (R93, R190), and what a CPU
cycle does between the entries of `FS4` and at each of them, counted from a zero counter (R178). -/

namespace Sys2Proof.Machine

/-! ### The phase under a CPU cycle -/

theorem Apu.atEntry_withPhase (adj : OnesAdj) (a : Apu) (e : ScheduleEntry) (phase : Nat) :
    Apu.atEntry adj { a with masterClockPhase := phase } e = { a.atEntry adj e with masterClockPhase := phase } := by
  unfold Apu.atEntry
  cases e.quarter <;> cases e.half <;> rfl

/-- The tick neither reads nor writes the phase. -/
theorem Apu.halfTick_withPhase (ps : Params) (a : Apu) (phase : Nat) :
    Apu.halfTick ps { a with masterClockPhase := phase } = { a.halfTick ps with masterClockPhase := phase } := by
  unfold Apu.halfTick
  cases (scheduleOf ps a.fs.stepCount).find? (fun e => e.count == a.fs.cpuCycleCounter + 1) with
  | none => rfl
  | some e =>
    exact Apu.atEntry_withPhase ps.sweepOnesAdj
      { a with fs := { a.fs with cpuCycleCounter := a.fs.cpuCycleCounter + 1 } } e phase

theorem Apu.clockTimers_withPhase (ps : Params) (a : Apu) (phase : Nat) :
    Apu.clockTimers ps { a with masterClockPhase := phase } = { a.clockTimers ps with masterClockPhase := phase } := by
  rw [Apu.clockTimers_eq, Apu.clockTimers_eq]

theorem Apu.cpuCycle_withPhase (ps : Params) (a : Apu) (phase : Nat) :
    Apu.cpuCycle ps { a with masterClockPhase := phase } = { a.cpuCycle ps with masterClockPhase := phase } := by
  rw [Apu.cpuCycle, Apu.cpuCycle, Apu.halfTick_withPhase ps a phase,
    Apu.halfTick_withPhase ps (a.halfTick ps) phase, Apu.clockTimers_withPhase]

/-! ### Master clocks (R190) -/

section MasterClock

variable {ps : Params} {a : Apu}

theorem Apu.masterClock_of_phase_ne (h : a.masterClockPhase ≠ 0) :
    a.masterClock ps = { a with masterClockPhase := (a.masterClockPhase + 1) % ps.apuDiv } := by
  rw [Apu.masterClock, if_neg h]

theorem Apu.masterClock_of_phase_zero (h : a.masterClockPhase = 0) :
    a.masterClock ps = { a.cpuCycle ps with masterClockPhase := 1 % ps.apuDiv } := by
  rw [Apu.masterClock, if_pos h, h]

/-- Up to the end of the round, clocks from a phase above 0 only advance it. -/
theorem Apu.iterate_masterClock_idle (hphase : a.masterClockPhase ≠ 0) (k : Nat)
    (hk : a.masterClockPhase + k ≤ ps.apuDiv) (hlt : a.masterClockPhase < ps.apuDiv) :
    (Apu.masterClock ps)^[k] a = { a with masterClockPhase := (a.masterClockPhase + k) % ps.apuDiv } := by
  induction k with
  | zero => simp [Nat.mod_eq_of_lt hlt]
  | succ k ih =>
    have hmod : (a.masterClockPhase + k) % ps.apuDiv = a.masterClockPhase + k := Nat.mod_eq_of_lt (by omega)
    rw [Function.iterate_succ_apply', ih (by omega), hmod, Apu.masterClock_of_phase_ne (by show _ + _ ≠ 0; omega)]
    rfl

/-- From phase 0, up to a whole round of clocks run one CPU cycle. -/
theorem Apu.iterate_masterClock_of_phase_zero (hphase : a.masterClockPhase = 0) (k : Nat) (hk : k + 1 ≤ ps.apuDiv) :
    (Apu.masterClock ps)^[k + 1] a = { a.cpuCycle ps with masterClockPhase := (k + 1) % ps.apuDiv } := by
  rw [Function.iterate_succ_apply, Apu.masterClock_of_phase_zero hphase]
  rcases Nat.eq_zero_or_pos k with rfl | hpos
  · rfl
  · have hone : 1 % ps.apuDiv = 1 := Nat.mod_eq_of_lt (by omega)
    rw [hone, Apu.iterate_masterClock_idle Nat.one_ne_zero k (by show 1 + k ≤ _; omega) (by show 1 < _; omega)]
    show ({ a.cpuCycle ps with masterClockPhase := (1 + k) % ps.apuDiv } : Apu) = _
    rw [Nat.add_comm]

/-- A whole round of clocks, from any phase, runs one CPU cycle and comes back to the phase. -/
theorem Apu.iterate_masterClock_round (h : a.masterClockPhase < ps.apuDiv) :
    (Apu.masterClock ps)^[ps.apuDiv] a = a.cpuCycle ps := by
  rcases Nat.eq_zero_or_pos a.masterClockPhase with hzero | hpos
  · have hround := Apu.iterate_masterClock_of_phase_zero (ps := ps) hzero (ps.apuDiv - 1) (by omega)
    rw [show ps.apuDiv - 1 + 1 = ps.apuDiv by omega, Nat.mod_self, ← hzero, ← a.cpuCycle_masterClockPhase ps] at hround
    exact hround
  · have hidle := Apu.iterate_masterClock_idle (ps := ps) (Nat.ne_of_gt hpos) (ps.apuDiv - a.masterClockPhase) (by omega) h
    rw [show a.masterClockPhase + (ps.apuDiv - a.masterClockPhase) = ps.apuDiv by omega, Nat.mod_self] at hidle
    have hsplit : ps.apuDiv = a.masterClockPhase - 1 + 1 + (ps.apuDiv - a.masterClockPhase) := by omega
    calc (Apu.masterClock ps)^[ps.apuDiv] a
      _ = (Apu.masterClock ps)^[a.masterClockPhase - 1 + 1] { a with masterClockPhase := 0 } := by
        rw [← hidle, ← Function.iterate_add_apply, ← hsplit]
      _ = { a.cpuCycle ps with masterClockPhase := a.masterClockPhase } := by
        rw [Apu.iterate_masterClock_of_phase_zero rfl _ (by omega), Apu.cpuCycle_withPhase, Nat.sub_add_cancel hpos,
          Nat.mod_eq_of_lt h]
      _ = a.cpuCycle ps := by
        rw [← a.cpuCycle_masterClockPhase ps]

theorem Apu.iterate_masterClock_rounds (h : a.masterClockPhase < ps.apuDiv) (n : Nat) :
    ((Apu.masterClock ps)^[ps.apuDiv])^[n] a = (Apu.cpuCycle ps)^[n] a := by
  induction n generalizing a with
  | zero => rfl
  | succ n ih =>
    rw [Function.iterate_succ_apply, Function.iterate_succ_apply, Apu.iterate_masterClock_round h,
      ih (by rwa [Apu.cpuCycle_masterClockPhase])]

end MasterClock

/-! ### One CPU cycle of the 4-step sequence (R177, R191) -/

section FourStep

variable {ps : Params} {a : Apu} {n : Nat}

/-- The schedule counts whole CPU cycles, so the first tick of a cycle only counts. -/
theorem Apu.halfTick_of_even (hfour : a.fs.stepCount = .four) (hcount : a.fs.cpuCycleCounter = 2 * n) :
    a.halfTick ps = { a with fs := { a.fs with cpuCycleCounter := 2 * n + 1 } } := by
  rw [← hcount]
  refine Apu.halfTick_of_no_entry fun e he => ?_
  rw [hfour] at he
  have := fs4_facts.even e he
  omega

/-- Entries of `FS4` with the same count are the same entry. -/
theorem eq_of_mem_fs4_of_count_eq {e f : ScheduleEntry} (he : e ∈ fs4) (hf : f ∈ fs4) (h : e.count = f.count) : e = f := by
  have hinj : ∀ e ∈ fs4, ∀ f ∈ fs4, e.count = f.count → e = f := by decide
  exact hinj e he f hf h

/-- Between the entries a CPU cycle counts and clocks the timers. -/
theorem Apu.cpuCycle_of_no_entry (hfour : a.fs.stepCount = .four) (hcount : a.fs.cpuCycleCounter = 2 * n)
    (h : ∀ e ∈ fs4, e.count ≠ 2 * n + 2) :
    a.cpuCycle ps = ({ a with fs := { a.fs with cpuCycleCounter := 2 * n + 2 } } : Apu).clockTimers ps := by
  rw [Apu.cpuCycle, Apu.halfTick_of_even hfour hcount, Apu.halfTick_of_no_entry]
  show ∀ e ∈ scheduleOf ps a.fs.stepCount, _
  rw [hfour]
  exact h

/-- At an entry the second tick sends the entry's pulses, before the timers. -/
theorem Apu.cpuCycle_of_entry (hfour : a.fs.stepCount = .four) (hcount : a.fs.cpuCycleCounter = 2 * n)
    {e : ScheduleEntry} (he : e ∈ fs4) (h : e.count = 2 * n + 2) :
    a.cpuCycle ps =
      let q := if e.quarter then a.quarterFrame else a
      ({ (if e.half then q.halfFrame ps.sweepOnesAdj else q) with
          fs := { a.fs with
            cpuCycleCounter := if e.wrap then 0 else 2 * n + 2
            interruptFlag := a.fs.interruptFlag || (e.interrupt && !a.fs.interruptInhibited) } } : Apu).clockTimers ps := by
  have htick : Apu.halfTick ps { a with fs := { a.fs with cpuCycleCounter := 2 * n + 1 } } =
      Apu.atEntry ps.sweepOnesAdj { a with fs := { a.fs with cpuCycleCounter := 2 * n + 2 } } e := by
    rcases Apu.halfTick_cases ps { a with fs := { a.fs with cpuCycleCounter := 2 * n + 1 } } with
      ⟨hnone, -⟩ | ⟨f, hf, hfcount, htick⟩
    · rw [hfour] at hnone
      exact absurd (beq_iff_eq.2 h) (List.find?_eq_none.1 hnone e he)
    · rw [hfour] at hf
      rw [htick, eq_of_mem_fs4_of_count_eq hf he (hfcount.trans h.symm)]
  rw [Apu.cpuCycle, Apu.halfTick_of_even hfour hcount, htick, Apu.atEntry_withFs, FrameSequencer.atEntry_eq]
  simp only [hfour, decide_true, Bool.and_true]

/-- Before the last entry a CPU cycle counts, whatever pulses it sends. -/
theorem Apu.cpuCycle_fs_of_lt (hfour : a.fs.stepCount = .four) (hcount : a.fs.cpuCycleCounter = 2 * n)
    (hn : n + 1 < 29830) : (a.cpuCycle ps).fs = { a.fs with cpuCycleCounter := 2 * n + 2 } := by
  by_cases hentry : ∃ e ∈ fs4, e.count = 2 * n + 2
  · obtain ⟨e, he, hecount⟩ := hentry
    have hplain : ∀ e ∈ fs4, e.count < 59660 → e.wrap = false ∧ e.interrupt = false := by decide
    obtain ⟨hwrap, hinterrupt⟩ := hplain e he (by omega)
    rw [Apu.cpuCycle_of_entry hfour hcount he hecount, Apu.clockTimers_fs]
    simp [hwrap, hinterrupt]
  · rw [Apu.cpuCycle_of_no_entry hfour hcount (by simpa using hentry), Apu.clockTimers_fs]

/-- From a zero counter, the sequencer's own fields in the first 29830 cycles (R178). -/
theorem Apu.iterate_cpuCycle_fs (hfour : a.fs.stepCount = .four) (hzero : a.fs.cpuCycleCounter = 0) (n : Nat)
    (hn : n < 29830) : ((Apu.cpuCycle ps)^[n] a).fs = { a.fs with cpuCycleCounter := 2 * n } := by
  induction n with
  | zero =>
    show a.fs = _
    rw [Nat.mul_zero, ← hzero]
  | succ n ih =>
    have hfs := ih (by omega)
    rw [Function.iterate_succ_apply', Apu.cpuCycle_fs_of_lt (by rw [hfs]; exact hfour) (by rw [hfs]) hn, hfs]
    rfl

/-- The cycles of `FS4`'s entries (R178). -/
theorem count_ne_of_not_mem (h : n + 1 ∉ [7457, 14914, 22371, 29830]) : ∀ e ∈ fs4, e.count ≠ 2 * n + 2 := by
  simp only [List.mem_cons, List.not_mem_nil, or_false, not_or] at h
  simp only [fs4, List.forall_mem_cons, List.not_mem_nil, false_implies, implies_true, and_true]
  omega

/-- An entry of a quarter pulse alone (R175). -/
theorem Apu.cpuCycle_of_quarter (hfour : a.fs.stepCount = .four) (hcount : a.fs.cpuCycleCounter = 2 * n)
    (h : n + 1 ∈ [7457, 22371]) :
    a.cpuCycle ps =
      ({ a.quarterFrame with fs := { a.fs with cpuCycleCounter := 2 * n + 2 } } : Apu).clockTimers ps := by
  have he : ⟨2 * n + 2, true, false, false, false⟩ ∈ fs4 := by
    simp only [List.mem_cons, List.not_mem_nil, or_false] at h
    simp [fs4]
    omega
  simpa using Apu.cpuCycle_of_entry hfour hcount he rfl

/-- The entry of both pulses inside the sequence (R175). -/
theorem Apu.cpuCycle_of_half (hfour : a.fs.stepCount = .four) (hcount : a.fs.cpuCycleCounter = 2 * n)
    (h : n + 1 = 14914) :
    a.cpuCycle ps =
      ({ (a.quarterFrame.halfFrame ps.sweepOnesAdj) with
          fs := { a.fs with cpuCycleCounter := 2 * n + 2 } } : Apu).clockTimers ps := by
  have he : ⟨2 * n + 2, true, true, false, false⟩ ∈ fs4 := by
    simp [fs4]
    omega
  simpa using Apu.cpuCycle_of_entry hfour hcount he rfl

/-- The last entry: both pulses, the wrap and the interrupt (R175). -/
theorem Apu.cpuCycle_of_last (hfour : a.fs.stepCount = .four) (hcount : a.fs.cpuCycleCounter = 2 * n)
    (h : n + 1 = 29830) :
    a.cpuCycle ps =
      ({ (a.quarterFrame.halfFrame ps.sweepOnesAdj) with
          fs := { a.fs with
            cpuCycleCounter := 0
            interruptFlag := a.fs.interruptFlag || !a.fs.interruptInhibited } } : Apu).clockTimers ps := by
  have he : ⟨2 * n + 2, true, true, true, true⟩ ∈ fs4 := by
    simp [fs4]
    omega
  simpa using Apu.cpuCycle_of_entry hfour hcount he rfl

end FourStep

/-! ### The statements -/

/-- Settles O31: the counter after `n` cycles says which entry, if any, the next cycle reaches. -/
theorem fourStepSequenceTimingLaw : Obligations.FourStepSequenceTimingLaw := by
  intro ps a hzero hfour
  have hfs : ∀ n, n < 29830 → ((Apu.cpuCycle ps)^[n] a).fs = { a.fs with cpuCycleCounter := 2 * n } :=
    Apu.iterate_cpuCycle_fs hfour hzero
  have hlast : ∀ n, n + 1 = 29830 → Apu.cpuCycle ps ((Apu.cpuCycle ps)^[n] a) =
      ({ (((Apu.cpuCycle ps)^[n] a).quarterFrame.halfFrame ps.sweepOnesAdj) with
          fs := { a.fs with interruptFlag := a.fs.interruptFlag || !a.fs.interruptInhibited } } : Apu).clockTimers ps := by
    intro n hn
    have hb := hfs n (by omega)
    rw [Apu.cpuCycle_of_last (by rw [hb]; exact hfour) (by rw [hb]) hn, hb, ← hzero]
  refine ⟨fun n hn => ?_, ?_⟩
  · have hb := hfs n hn
    have hbfour : ((Apu.cpuCycle ps)^[n] a).fs.stepCount = .four := by rw [hb]; exact hfour
    have hbcount : ((Apu.cpuCycle ps)^[n] a).fs.cpuCycleCounter = 2 * n := by rw [hb]
    exact ⟨hb, fun h => Apu.cpuCycle_of_no_entry hbfour hbcount (count_ne_of_not_mem h),
      Apu.cpuCycle_of_quarter hbfour hbcount, Apu.cpuCycle_of_half hbfour hbcount, hlast n⟩
  · rw [Function.iterate_succ_apply' (Apu.cpuCycle ps) 29829, hlast 29829 rfl, Apu.clockTimers_fs]

/-- Settles O32: the clocks come in rounds of `APU_DIV`, each one CPU cycle. -/
theorem cpucycRunsExactlyNCpuCycles : Obligations.CpucycRunsExactlyNCpuCycles := by
  intro ps a n h
  rw [Nat.mul_comm, Function.iterate_mul, Apu.iterate_masterClock_rounds h]

/-- Settles O27: the master clock's definition is the statement's. -/
theorem masterClockRunsACpuCycleOnPhaseZero : Obligations.MasterClockRunsACpuCycleOnPhaseZero := fun _ => rfl

end Sys2Proof.Machine
end

section
/-! The mixer (R230 to R233): both tables are a quotient `c * i / (a + b * i)`, which increases with `i`; the channel
outputs bound the two indices, and the two statements are read off. -/

namespace Sys2Proof.Machine

/-! ### The tables -/

theorem pulseTable_eq (i : Nat) : pulseTable i = 597 * i / (50800 + 625 * i) := by
  unfold pulseTable
  split
  next h => simp [h]
  next h =>
    have hpos : (0 : ℚ) < i := Nat.cast_pos.2 (Nat.pos_of_ne_zero h)
    field_simp
    ring

theorem triangleNoiseTable_eq (i : Nat) : triangleNoiseTable i = 16367 * i / (2432900 + 10000 * i) := by
  unfold triangleNoiseTable
  split
  next h => simp [h]
  next h =>
    have hpos : (0 : ℚ) < i := Nat.cast_pos.2 (Nat.pos_of_ne_zero h)
    field_simp
    ring

/-- The shape of both tables rises strictly: after clearing the denominators the difference is `a * c * (j - i)`. -/
theorem strictMono_mixerQuotient {a b c : ℚ} (ha : 0 < a) (hb : 0 < b) (hc : 0 < c) :
    StrictMono fun i : Nat => c * i / (a + b * i) := by
  intro i j hij
  have hij' : (i : ℚ) < j := Nat.cast_lt.2 hij
  have hi : (0 : ℚ) ≤ i := Nat.cast_nonneg i
  have hj : (0 : ℚ) ≤ j := Nat.cast_nonneg j
  have hgap : a * c * i < a * c * j := mul_lt_mul_of_pos_left hij' (mul_pos ha hc)
  show c * i / (a + b * i) < c * j / (a + b * j)
  rw [div_lt_div_iff₀ (by positivity) (by positivity)]
  linarith

theorem strictMono_pulseTable : StrictMono pulseTable := by
  rw [funext pulseTable_eq]
  exact strictMono_mixerQuotient (by norm_num) (by norm_num) (by norm_num)

theorem strictMono_triangleNoiseTable : StrictMono triangleNoiseTable := by
  rw [funext triangleNoiseTable_eq]
  exact strictMono_mixerQuotient (by norm_num) (by norm_num) (by norm_num)

/-! ### The indices -/

/-- Two 4-bit outputs (R233). -/
theorem pulseIndex_le (ps : Params) (a : Apu) : pulseIndex ps a ≤ 30 := by
  have := (a.pulse1.output ps).isLt
  have := (a.pulse2.output ps).isLt
  unfold pulseIndex
  omega

theorem triangleNoiseIndex_le (a : Apu) : triangleNoiseIndex a ≤ 75 := by
  have := a.triangle.output.isLt
  have := a.noise.output.isLt
  unfold triangleNoiseIndex
  omega

/-! ### The statements -/

/-- Settles O42: the two quotients, and their common shape. -/
theorem mixerTablesAreTheRulesRationalsAndIncrease : Obligations.MixerTablesAreTheRulesRationalsAndIncrease :=
  ⟨pulseTable_eq, triangleNoiseTable_eq, fun _ _ h => ⟨strictMono_pulseTable h, strictMono_triangleNoiseTable h⟩⟩

/-- Settles O43: the output lies between the tables' first entries and their entries at the largest indices. -/
theorem mixIsBoundedAndItsIndicesInRange : Obligations.MixIsBoundedAndItsIndicesInRange := by
  intro s p1 p2 t n i j
  have hpulse := pulseIndex_le s.params s.apu
  have htriangle := triangleNoiseIndex_le s.apu
  have hmix : s.mix = pulseTable (p1 + p2) + triangleNoiseTable (3 * t + 2 * n) := rfl
  have hzero : pulseTable 0 = 0 ∧ triangleNoiseTable 0 = 0 := ⟨if_pos rfl, if_pos rfl⟩
  refine ⟨?_, rfl, rfl, hpulse, htriangle, ?_, ?_⟩
  · rw [hmix, pulseTable_eq, triangleNoiseTable_eq]
  · have hp := strictMono_pulseTable.monotone (Nat.zero_le (p1 + p2))
    have ht := strictMono_triangleNoiseTable.monotone (Nat.zero_le (3 * t + 2 * n))
    rw [hzero.1] at hp
    rw [hzero.2] at ht
    rw [hmix]
    exact add_nonneg hp ht
  · have hp : pulseTable 30 = 17910 / 69550 := by rw [pulseTable_eq]; norm_num
    have ht : triangleNoiseTable 75 = 1227525 / 3182900 := by rw [triangleNoiseTable_eq]; norm_num
    rw [hmix, ← hp, ← ht]
    exact add_le_add (strictMono_pulseTable.monotone hpulse) (strictMono_triangleNoiseTable.monotone htriangle)

end Sys2Proof.Machine
end

section
/-! Mapper 1's serial port over one write and over five (R283, R289), mapper 4's two layouts as numbers (R298, R299), and
its scanline counter over a whole round (R307); the statements read off them. -/

namespace Sys2Proof.Machine

theorem bitVec2_cases (x : BitVec 2) : x = 0#2 ∨ x = 1#2 ∨ x = 2#2 ∨ x = 3#2 := by
  revert x
  decide

/-! ### The serial port (R283) -/

/-- The shift register with a bit entered at the top. -/
def shiftIn (shift : BitVec 5) (d : Bool) : BitVec 5 := bit d ++ shift.extractLsb' 1 4

theorem shiftIn_eq (shift : BitVec 5) (d : Bool) : shiftIn shift d = BitVec.ofNat 5 (16 * d.toNat + shift.toNat / 2) := by
  revert shift d
  decide

/-- The marker is in bit 0 when the register is odd. -/
theorem marker_eq_false_iff (shift : BitVec 5) : shift.getLsbD 0 = false ↔ shift.toNat % 2 = 0 := by
  revert shift
  decide

section Load

variable {m : Mmc1}

/-- A write that does not find the marker in bit 0 only shifts. -/
theorem Mmc1.load_of_no_marker (h : m.shift.getLsbD 0 = false) (sel : BitVec 2) (d : Bool) :
    m.load sel false d = { m with shift := shiftIn m.shift d } := by
  simp only [Mmc1.load, h, Bool.false_eq_true, ↓reduceIte]
  rfl

/-- A write that finds the marker in bit 0 commits the five bits. -/
theorem Mmc1.load_of_marker (h : m.shift.getLsbD 0 = true) (sel : BitVec 2) (d : Bool) :
    m.load sel false d = { m.commit sel (shiftIn m.shift d) with shift := 16 } := by
  simp only [Mmc1.load, h, Bool.false_eq_true, ↓reduceIte]
  rfl

/-- A write after a shift, when the marker is not in bit 0. -/
theorem Mmc1.load_withShift_of_no_marker {r : BitVec 5} (h : r.getLsbD 0 = false) (sel : BitVec 2) (d : Bool) :
    ({ m with shift := r } : Mmc1).load sel false d = { m with shift := shiftIn r d } :=
  Mmc1.load_of_no_marker h sel d

/-- The register the committed value goes to, with the shift register put back. -/
theorem Mmc1.commit_withShift (m : Mmc1) (sel : BitVec 2) (v : BitVec 5) :
    ({ m.commit sel v with shift := 16 } : Mmc1) =
      if sel = 0 then { m with shift := 16, control := v }
      else if sel = 1 then { m with shift := 16, chrBank0 := v }
      else if sel = 2 then { m with shift := 16, chrBank1 := v }
      else { m with shift := 16, prgBank := BitVec.ofNat 4 v.toNat } := by
  have hlow : v.extractLsb' 0 4 = BitVec.ofNat 4 v.toNat := by
    revert v
    decide
  rw [← hlow]
  rcases bitVec2_cases sel with rfl | rfl | rfl | rfl <;> rfl

/-- A write after a shift, when the marker is in bit 0. -/
theorem Mmc1.load_withShift_of_marker {r : BitVec 5} (h : r.getLsbD 0 = true) (sel : BitVec 2) (d : Bool) :
    ({ m with shift := r } : Mmc1).load sel false d =
      if sel = 0 then { m with shift := 16, control := shiftIn r d }
      else if sel = 1 then { m with shift := 16, chrBank0 := shiftIn r d }
      else if sel = 2 then { m with shift := 16, chrBank1 := shiftIn r d }
      else { m with shift := 16, prgBank := BitVec.ofNat 4 (shiftIn r d).toNat } :=
  (Mmc1.load_of_marker h sel d).trans (Mmc1.commit_withShift _ sel _)

/-- The serial port with the entered bit and the marker as numbers (R283). -/
theorem Mmc1.load_eq (m : Mmc1) (sel : BitVec 2) (rst d : Bool) :
    let v := BitVec.ofNat 5 (16 * d.toNat + m.shift.toNat / 2)
    m.load sel rst d =
      if rst then { m with shift := 16, control := m.control ||| 12 }
      else if m.shift.toNat % 2 = 0 then { m with shift := v }
      else if sel = 0 then { m with shift := 16, control := v }
      else if sel = 1 then { m with shift := 16, chrBank0 := v }
      else if sel = 2 then { m with shift := 16, chrBank1 := v }
      else { m with shift := 16, prgBank := BitVec.ofNat 4 v.toNat } := by
  intro v
  have hv : v = shiftIn m.shift d := (shiftIn_eq m.shift d).symm
  cases rst with
  | true => rfl
  | false =>
    rw [if_neg Bool.false_ne_true, ← Mmc1.commit_withShift, hv]
    split
    next h => exact Mmc1.load_of_no_marker ((marker_eq_false_iff _).2 h) sel d
    next h => exact Mmc1.load_of_marker (Bool.eq_true_of_not_eq_false (mt (marker_eq_false_iff _).1 h)) sel d

end Load

/-- Five bits entered from the initial register: the marker reaches bit 0 with the fourth, and the fifth write sees the
five bits in the order of writing (R289). -/
theorem shiftIn_five (b0 b1 b2 b3 b4 : Bool) :
    (16 : BitVec 5).getLsbD 0 = false ∧ (shiftIn 16 b0).getLsbD 0 = false ∧
    (shiftIn (shiftIn 16 b0) b1).getLsbD 0 = false ∧ (shiftIn (shiftIn (shiftIn 16 b0) b1) b2).getLsbD 0 = false ∧
    (shiftIn (shiftIn (shiftIn (shiftIn 16 b0) b1) b2) b3).getLsbD 0 = true ∧
    shiftIn (shiftIn (shiftIn (shiftIn (shiftIn 16 b0) b1) b2) b3) b4 =
      BitVec.ofNat 5 (b0.toNat + 2 * b1.toNat + 4 * b2.toNat + 8 * b3.toNat + 16 * b4.toNat) := by
  revert b0 b1 b2 b3 b4
  decide

/-! ### Mapper 4's program layout (R298) -/

theorem m4PrgBank_eq (c : Cartridge) (m : Mmc3) (a : CpuAddr) :
    m4PrgBank c m a =
      if a.toNat / 0x2000 % 4 = 3 then 2 * c.prgChunks - 1
      else if a.toNat / 0x2000 % 4 = 1 then m.R[7].toNat
      else if a.toNat / 0x2000 % 4 = 0 then (if m.prgMode then 2 * c.prgChunks - 2 else m.R[6].toNat)
      else (if m.prgMode then m.R[6].toNat else 2 * c.prgChunks - 2) := by
  have hslot : (a.extractLsb' 13 2).toNat = a.toNat / 0x2000 % 4 := by
    rw [BitVec.extractLsb'_toNat, Nat.shiftRight_eq_div_pow]
  unfold m4PrgBank
  rw [← hslot]
  rcases bitVec2_cases (a.extractLsb' 13 2) with h | h | h | h <;> rw [h] <;> rfl

/-! ### Mapper 4's graphics layout (R299) -/

/-- The half of a 2 KiB bank: bit 0 of the register is replaced. -/
theorem twoKiBank_eq (r : Byte) (upper : Bool) : twoKiBank r upper = r.toNat / 2 * 2 + upper.toNat := by
  revert r upper
  decide

/-- Inverting bit 12 exchanges the two halves of the pattern tables. -/
theorem toNat_xor_half {a : PpuAddr} (h : a.toNat < 0x2000) : (a ^^^ 0x1000#14).toNat = (a.toNat + 0x1000) % 0x2000 := by
  have hlow : (a.toNat ^^^ 0x1000) % 2 ^ 12 = a.toNat % 2 ^ 12 := by
    rw [Nat.xor_mod_two_pow]
    exact Nat.xor_zero _
  have hhigh : (a.toNat ^^^ 0x1000) / 2 ^ 12 = (a.toNat / 2 ^ 12 + 1) % 2 := by
    rw [Nat.xor_div_two_pow]
    have hhalf : a.toNat / 2 ^ 12 < 2 := by omega
    interval_cases a.toNat / 2 ^ 12 <;> rfl
  rw [BitVec.toNat_xor]
  show a.toNat ^^^ 0x1000 = _
  omega

/-- The 1 KiB bank of an address, by its 1 KiB region `a'` of the two halves in the order of the registers (R299). -/
theorem m4ChrBank_eq (m : Mmc3) {a : PpuAddr} (h : a.toNat < 0x2000) :
    m4ChrBank m a =
      let a' := if m.chrMode then (a.toNat + 0x1000) % 0x2000 else a.toNat
      if a' < 0x800 then m.R[0].toNat / 2 * 2 + a' / 0x400 % 2
      else if a' < 0x1000 then m.R[1].toNat / 2 * 2 + a' / 0x400 % 2
      else if a' < 0x1400 then m.R[2].toNat
      else if a' < 0x1800 then m.R[3].toNat
      else if a' < 0x1C00 then m.R[4].toNat
      else m.R[5].toNat := by
  have hx : (a ^^^ (if m.chrMode then 0x1000#14 else 0#14)).toNat =
      if m.chrMode then (a.toNat + 0x1000) % 0x2000 else a.toNat := by
    cases m.chrMode with
    | true => exact toNat_xor_half h
    | false => simp
  unfold m4ChrBank
  simp only [twoKiBank_eq, ← hx]
  generalize hxdef : a ^^^ (if m.chrMode then 0x1000#14 else 0#14) = x
  have hlt : x.toNat < 0x2000 := by
    rw [← hxdef, hx]
    split <;> omega
  have hregion : (x.extractLsb' 11 2).toNat = x.toNat / 0x800 % 4 := by
    rw [BitVec.extractLsb'_toNat, Nat.shiftRight_eq_div_pow]
  have hupper : (x.getLsbD 10).toNat = x.toNat / 0x400 % 2 := by
    rw [BitVec.getLsbD, Nat.toNat_testBit]
  have hif : ∀ r r' : Nat, (if x.getLsbD 10 then r' else r) = if x.toNat / 0x400 % 2 = 1 then r' else r := by
    intro r r'
    rw [← hupper]
    cases x.getLsbD 10 <;> rfl
  have hregion_iff : ∀ n : Nat, n < 4 → (x.extractLsb' 11 2 = BitVec.ofNat 2 n ↔ x.toNat / 0x800 = n) := by
    intro n hn
    rw [← BitVec.toNat_inj, hregion, BitVec.toNat_ofNat]
    omega
  simp only [hupper, hif, hregion_iff 0 (by decide), hregion_iff 1 (by decide), hregion_iff 2 (by decide)]
  split_ifs <;> omega

/-! ### The scanline counter (R307) -/

/-- A countdown from `c` short of zero, one step on. -/
theorem ofNat_sub_step {w k : Nat} (c : BitVec w) (hk : k < c.toNat) :
    BitVec.ofNat w (c.toNat - k) ≠ 0 ∧ BitVec.ofNat w (c.toNat - k) - 1 = BitVec.ofNat w (c.toNat - (k + 1)) := by
  have hval : (BitVec.ofNat w (c.toNat - k)).toNat = c.toNat - k := by
    rw [BitVec.toNat_ofNat, Nat.mod_eq_of_lt]
    have := c.isLt
    omega
  have hne : BitVec.ofNat w (c.toNat - k) ≠ 0 := fun h0 => by
    rw [h0] at hval
    simp at hval
    omega
  refine ⟨hne, ?_⟩
  rw [sub_one_eq _ hne, hval, Nat.sub_sub]

section Scanline

variable {ps : Params} {m : Mmc3}

/-- A requested reload with a non-zero value raises nothing. -/
theorem Mmc3.countScanline_of_reload (h : m.reloadPending = true) (hvalue : m.irqReloadValue ≠ 0) :
    m.countScanline ps = { m with irqCounter := m.irqReloadValue, reloadPending := false } := by
  have hnonzero : decide (m.irqReloadValue = 0) = false := decide_eq_false hvalue
  rw [Mmc3.countScanline_eq, if_pos h, hnonzero, Bool.false_and, Bool.or_false]

/-- Passing zero reloads and, when enabled, raises the interrupt. -/
theorem Mmc3.countScanline_of_zero (h : m.reloadPending = false) (henabled : m.irqEnabled = true)
    (hzero : m.irqCounter = 0) :
    m.countScanline ps = { m with irqCounter := m.irqReloadValue, irqPending := true } := by
  rw [Mmc3.countScanline_eq, if_neg (by simp [h]), if_pos hzero, henabled, Bool.or_true]

theorem Mmc3.countScanline_of_ne (h : m.reloadPending = false) (hne : m.irqCounter ≠ 0) :
    m.countScanline ps = { m with irqCounter := m.irqCounter - 1 } := by
  rw [Mmc3.countScanline_eq, if_neg (by simp [h]), if_neg hne]

/-- The countdown from a full counter. -/
theorem Mmc3.iterate_countScanline (h : m.reloadPending = false) (hfull : m.irqCounter = m.irqReloadValue) (k : Nat)
    (hk : k ≤ m.irqReloadValue.toNat) :
    (Mmc3.countScanline ps)^[k] m = { m with irqCounter := BitVec.ofNat 8 (m.irqReloadValue.toNat - k) } := by
  induction k with
  | zero =>
    calc m = { m with irqCounter := m.irqReloadValue } := congrArg (fun c => { m with irqCounter := c }) hfull
      _ = _ := by simp
  | succ k ih =>
    obtain ⟨hne, hstep⟩ := ofNat_sub_step m.irqReloadValue (k := k) (by omega)
    rw [Function.iterate_succ_apply', ih (by omega), Mmc3.countScanline_of_ne (by exact h) hne]
    simp only [hstep]

/-- A whole round from a full counter ends full, with the interrupt raised. -/
theorem Mmc3.iterate_countScanline_round (h : m.reloadPending = false) (henabled : m.irqEnabled = true)
    (hfull : m.irqCounter = m.irqReloadValue) :
    (Mmc3.countScanline ps)^[m.irqReloadValue.toNat + 1] m = { m with irqPending := true } := by
  rw [Function.iterate_succ_apply', Mmc3.iterate_countScanline h hfull _ le_rfl,
    Mmc3.countScanline_of_zero (by exact h) (by exact henabled) (by simp)]
  simp only [← hfull]

end Scanline

/-! ### The statements -/

/-- Settles O45: the reset write, the shift, and the commit by `sel`. -/
theorem serialLoadShiftsOrCommits : Obligations.SerialLoadShiftsOrCommits := by
  intro s m sel rst d hmap v
  refine (onM1_of_map hmap _).trans ?_
  rw [m.load_eq]
  rfl

/-- Settles O46: four writes shift, the fifth commits what the five have entered. -/
theorem fiveSerialWritesCommitTheValueLeastSignificantBitFirst :
    Obligations.FiveSerialWritesCommitTheValueLeastSignificantBitFirst := by
  intro m b0 b1 b2 b3 b4 s0 s1 s2 s3 s4 hshift v
  obtain ⟨h0, h1, h2, h3, h4, hv⟩ := shiftIn_five b0 b1 b2 b3 b4
  rw [← hshift] at h0 h1 h2 h3 h4 hv
  rw [Mmc1.load_of_no_marker h0, Mmc1.load_withShift_of_no_marker h1, Mmc1.load_withShift_of_no_marker h2,
    Mmc1.load_withShift_of_no_marker h3, Mmc1.load_withShift_of_marker h4, hv, hshift]

/-- Settles O49: both rows read at mapper 4's own offset. -/
theorem scanlineMapperReadsFollowItsLayouts : Obligations.ScanlineMapperReadsFollowItsLayouts := by
  intro s m hmap
  refine ⟨fun a => ?_, fun a ha => ?_⟩
  · refine readProgram_of_map hmap (.head _) ?_
    show prgOffset s.cart (m4PrgBank s.cart m a) 0x2000 a = _
    rw [m4PrgBank_eq]
    rfl
  · refine readPattern_of_map hmap (.head _) ?_
    show chrOffset s.cart (m4ChrBank m a) 0x400 a = _
    rw [m4ChrBank_eq m ha]
    rfl

/-- Settles O51: after a trigger the first scanline fills the counter; from there it is a round of `N + 1`. -/
theorem scanlineInterruptComesAfterNPlusTwoThenEveryNPlusOne :
    Obligations.ScanlineInterruptComesAfterNPlusTwoThenEveryNPlusOne := by
  intro ps m hvalue henabled
  refine ⟨fun hreload => ⟨fun k hk => ?_, ?_⟩, fun hreload hfull => ⟨fun k hk => ?_, ?_⟩⟩
  · rw [Function.iterate_succ_apply, Mmc3.countScanline_of_reload hreload hvalue]
    exact Mmc3.iterate_countScanline (m := { m with irqCounter := m.irqReloadValue, reloadPending := false }) rfl rfl k hk
  · rw [Function.iterate_succ_apply, Mmc3.countScanline_of_reload hreload hvalue]
    exact Mmc3.iterate_countScanline_round (m := { m with irqCounter := m.irqReloadValue, reloadPending := false }) rfl
      henabled rfl
  · exact Mmc3.iterate_countScanline hreload hfull k hk
  · exact Mmc3.iterate_countScanline_round hreload henabled hfull

end Sys2Proof.Machine
end

section
/-! What a bus event does on every variant, as the mapper's translation of its address says (R242, R245): save memory
(R287, R302), graphics memory (R247), unclaimed words (R90). The statements read off them, those about the offsets
inside the storages (R52, R243), and those about the state after reset (R350 to R352). -/

namespace Sys2Proof.Machine

/-! ### Save memory -/

section Save

variable {s : State} {offset : BitVec 13} {d : Byte}

/-- A read of save memory, by the row of either variant that has it. -/
theorem exec_sramRead {r : Instr}
    (h : s.mapper = .m1 ∧ r = .m1Sramr offset ∨ s.mapper = .m4 ∧ r = .m4Sramr offset) :
    exec r s = .next (s.withAnswer (.read .sram offset.toNat (s.byteAt .sram offset.toNat))) := by
  rcases h with ⟨hm, rfl⟩ | ⟨hm, rfl⟩ <;> exact onMapper_of_mem (List.mem_singleton.2 hm) _

/-- A write of save memory, by the row of either variant that has it. -/
theorem exec_sramWrite {w : Instr}
    (h : s.mapper = .m1 ∧ w = .m1Sramw offset d ∨ s.mapper = .m4 ∧ w = .m4Sramw offset d) :
    exec w s = .next ((s.withSram (s.sram.write offset.toNat d)).withAnswer (.stored .sram offset.toNat)) := by
  rcases h with ⟨hm, rfl⟩ | ⟨hm, rfl⟩ <;> exact onMapper_of_mem (List.mem_singleton.2 hm) _

end Save

/-! ### Graphics memory -/

theorem exec_mapPpuw_of_ram {s : State} (h : chrIsRam s.cart = true) (a : PpuAddr) (d : Byte) :
    exec (.mapPpuw a d) s = .next
      ((s.withChr (s.chr.write (patternOffset s a) d)).withAnswer (.stored .chr (patternOffset s a))) :=
  if_pos h

theorem exec_mapPpuw_of_rom {s : State} (h : chrIsRam s.cart = false) (a : PpuAddr) (d : Byte) :
    exec (.mapPpuw a d) s = .next (s.withAnswer .notMine) :=
  if_neg (Bool.eq_false_iff.1 h)

/-! ### Words of the upper half of the rendering unit's space -/

theorem toNat_ppuAddress_lt (a : PpuAddr) : (0#2 ++ a : BitVec 16).toNat < 0x4000 :=
  toNat_ppuAddress a ▸ a.isLt

section UpperHalf

variable {m : Mapper} {a : PpuAddr}

theorem decode_ppurWord_of_not_pattern (ha : ¬ patternAddr a = true) :
    decode m (ppurWord a) = .ok (.nopNotmine .ppur (0#2 ++ a) 0#8) := by
  rw [patternAddr_iff, ← toNat_ppuAddress] at ha
  rw [decode_ppurWord, decodePpur_of_not_pattern (toNat_ppuAddress_lt a) ha]

theorem decode_ppuwWord_of_not_pattern (ha : ¬ patternAddr a = true) (d : Byte) :
    decode m (ppuwWord a d) = .ok (.nopNotmine .ppuw (0#2 ++ a) d) := by
  rw [patternAddr_iff, ← toNat_ppuAddress] at ha
  rw [decode_ppuwWord, decodePpuw_of_not_pattern (toNat_ppuAddress_lt a) ha]

end UpperHalf

/-! ### Bus reads (R242) -/

section BusRead

variable {s : State}

theorem hasSram_iff {m : Mapper} : m.hasSram = true ↔ m = .m1 ∨ m = .m4 := by
  simp [Mapper.hasSram]

/-- Every variant answers a read at 0x8000 and above from `PRG`. -/
theorem exec_decodeCartRead (a : CpuAddr) : exec (decodeCartRead s.mapper a) s =
    .next (s.withAnswer (.read .prg (programOffset s a) (s.byteAt .prg (programOffset s a)))) := by
  cases hm : s.mapper <;> exact readProgram_eq_next.2 ⟨by simp [hm], rfl⟩

theorem exec_decodePatternRead (a : PpuAddr) : exec (decodePatternRead s.mapper a) s =
    .next (s.withAnswer (.read .chr (patternOffset s a) (s.byteAt .chr (patternOffset s a)))) := by
  cases hm : s.mapper <;> exact readPattern_eq_next.2 ⟨by simp [hm], rfl⟩

theorem exec_decodeSaveRead (h : s.mapper.hasSram = true) (a : CpuAddr) (d : Byte) :
    let offset := sramOffset (a.extractLsb' 0 13)
    exec (decodeSaveRead s.mapper a d) s = .next (s.withAnswer (.read .sram offset (s.byteAt .sram offset))) := by
  rcases hasSram_iff.1 h with hm | hm
  · exact exec_sramRead (.inl ⟨hm, by rw [hm]; rfl⟩)
  · exact exec_sramRead (.inr ⟨hm, by rw [hm]; rfl⟩)

/-- A processor read but the APU's own answers as its translation says. -/
theorem takeEvent_cpurWord {a : CpuAddr} (h : a ≠ 0x4015#16) :
    takeEvent (cpurWord a) s = .next (s.withAnswer (answerOfRead s (mapCpuRead s a))) := by
  rw [takeEvent_of_decode_ok (decode_cpurWord _ _)]
  unfold mapCpuRead
  split
  next hc =>
    rw [decodeCpur_of_cart hc]
    exact exec_decodeCartRead a
  next hc =>
    have hcart : cartAddr a = false := Bool.eq_false_of_not_eq_true hc
    split
    next hs =>
      obtain ⟨hsave, hsram⟩ := Bool.and_eq_true_iff.1 hs
      rw [decodeCpur_of_save hsave]
      exact exec_decodeSaveRead hsram a 0#8
    next hs =>
      have hclaimed : claimed s.mapper .cpur a = false := by
        simp [claimed, h, hcart, Bool.and_comm _ (saveAddr a), Bool.eq_false_of_not_eq_true hs]
      rw [decodeCpur_of_not_claimed hclaimed]
      rfl

/-- A rendering-unit read answers as its translation says. -/
theorem takeEvent_ppurWord (a : PpuAddr) :
    takeEvent (ppurWord a) s = .next (s.withAnswer (answerOfRead s (mapPpuRead s a))) := by
  unfold mapPpuRead
  split
  next ha =>
    rw [takeEvent_of_decode_ok (decode_ppurWord_of_pattern ha)]
    exact exec_decodePatternRead a
  next ha =>
    rw [takeEvent_of_decode_ok (decode_ppurWord_of_not_pattern ha)]
    rfl

end BusRead

/-! ### Bus writes (R241, R242, R245) -/

section BusWrite

variable {s : State}

/-- A register write at 0x8000 and above replaces mapper registers and is `Handled`. -/
theorem exec_decodeBankWrite (h : s.mapper.hasBankPort = true) (a : CpuAddr) (d : Byte) :
    ∃ m, exec (decodeBankWrite s.mapper a d) s = .next ((s.withMap m).withAnswer .handled) := by
  obtain ⟨params, cart, apu, map, prg, chr, sram, events, answer⟩ := s
  cases map with
  | m0 | m140 => cases h
  | m4 m =>
    show ∃ m', exec (decodeM4Write a d) _ = _
    unfold decodeM4Write
    split_ifs <;> exact ⟨_, rfl⟩
  | m1 | m2 | m3 | m7 | m66 => exact ⟨_, rfl⟩

/-- A write to the save-memory range on the variants that have it is stored. -/
theorem exec_decodeSaveWrite (h : s.mapper.hasSram = true) (a : CpuAddr) (d : Byte) :
    let offset := sramOffset (a.extractLsb' 0 13)
    exec (decodeSaveWrite s.mapper a d) s =
      .next ((s.withSram (s.sram.write offset d)).withAnswer (.stored .sram offset)) := by
  rcases hasSram_iff.1 h with hm | hm
  · exact exec_sramWrite (.inl ⟨hm, by rw [hm]; rfl⟩)
  · exact exec_sramWrite (.inr ⟨hm, by rw [hm]; rfl⟩)

/-- Mapper 140 takes the save-memory range as its bank register. -/
theorem exec_decodeSaveWrite_m140 (h : s.mapper = .m140) (a : CpuAddr) (d : Byte) :
    ∃ m, exec (decodeSaveWrite s.mapper a d) s = .next ((s.withMap m).withAnswer .handled) := by
  rw [h]
  exact ⟨_, onMapper_of_mem (List.mem_singleton.2 h) _⟩

/-- What a processor write that the APU does not claim does, by its translation. -/
inductive CpuWriteDone (s : State) (d : Byte) (w : EventWord) : Translation → Prop
  | notMine (h : takeEvent w s = .next (s.withAnswer .notMine)) : CpuWriteDone s d w .notMine
  | handled (m : MapState) (h : takeEvent w s = .next ((s.withMap m).withAnswer .handled)) : CpuWriteDone s d w .handled
  | sram (o : Nat) (h : takeEvent w s = .next ((s.withSram (s.sram.write o d)).withAnswer (.stored .sram o))) :
      CpuWriteDone s d w (.sram o)

theorem cpuWriteDone_of_claimed_eq_false {a : CpuAddr} {d : Byte} (h : claimed s.mapper .cpuw a = false) :
    CpuWriteDone s d (cpuwWord a d) .notMine := by
  refine .notMine ?_
  rw [takeEvent_of_decode_ok (decode_cpuwWord _ _ _), decodeCpuw_of_not_claimed h]
  rfl

theorem cpuWriteDone {a : CpuAddr} (hapu : apuWriteAddr a = false) (d : Byte) :
    CpuWriteDone s d (cpuwWord a d) (mapCpuWrite s a) := by
  have htake : takeEvent (cpuwWord a d) s = exec (decodeCpuw s.mapper a d) s :=
    takeEvent_of_decode_ok (decode_cpuwWord _ _ _)
  cases hcart : cartAddr a with
  | true =>
    rw [decodeCpuw_of_cart hcart] at htake
    cases hport : s.mapper.hasBankPort with
    | true =>
      obtain ⟨m, hm⟩ := exec_decodeBankWrite hport a d
      rw [show mapCpuWrite s a = .handled by simp [mapCpuWrite, hcart, hport]]
      exact .handled m (htake.trans hm)
    | false =>
      rw [show mapCpuWrite s a = .notMine by simp [mapCpuWrite, hcart, hport]]
      exact cpuWriteDone_of_claimed_eq_false (by simp [claimed, hapu, hport, saveAddr_of_cart hcart])
  | false =>
    cases hsave : saveAddr a with
    | false =>
      rw [show mapCpuWrite s a = .notMine by simp [mapCpuWrite, hcart, hsave]]
      exact cpuWriteDone_of_claimed_eq_false (by simp [claimed, hapu, hcart, hsave])
    | true =>
      rw [decodeCpuw_of_save hsave] at htake
      cases hsram : s.mapper.hasSram with
      | true =>
        rw [show mapCpuWrite s a = .sram (sramOffset (a.extractLsb' 0 13)) by simp [mapCpuWrite, hcart, hsave, hsram]]
        exact .sram _ (htake.trans (exec_decodeSaveWrite hsram a d))
      | false =>
        by_cases h140 : s.mapper = .m140
        · obtain ⟨m, hm⟩ := exec_decodeSaveWrite_m140 h140 a d
          rw [show mapCpuWrite s a = .handled by simp [mapCpuWrite, hcart, hsave, h140, Mapper.hasSram]]
          exact .handled m (htake.trans hm)
        · rw [show mapCpuWrite s a = .notMine by simp [mapCpuWrite, hcart, hsave, hsram, h140]]
          exact cpuWriteDone_of_claimed_eq_false (by simp [claimed, hapu, hcart, hsram, h140])

/-- A rendering-unit write is stored when its translation claims it. -/
theorem takeEvent_ppuwWord (a : PpuAddr) (d : Byte) : takeEvent (ppuwWord a d) s =
    match mapPpuWrite s a with
    | .chr o => .next { s with answer := .stored .chr o, chr := s.chr.write o d }
    | _ => .next { s with answer := .notMine } := by
  cases ha : patternAddr a with
  | false =>
    rw [takeEvent_of_decode_ok (decode_ppuwWord_of_not_pattern (by simp [ha]) d),
      show mapPpuWrite s a = .notMine by simp [mapPpuWrite, ha]]
    rfl
  | true =>
    rw [takeEvent_of_decode_ok (decode_ppuwWord_of_pattern ha d)]
    cases hram : chrIsRam s.cart with
    | true =>
      rw [show mapPpuWrite s a = .chr (patternOffset s a) by simp [mapPpuWrite, ha, hram], exec_mapPpuw_of_ram hram]
      rfl
    | false =>
      rw [show mapPpuWrite s a = .notMine by simp [mapPpuWrite, hram], exec_mapPpuw_of_rom hram]
      rfl

end BusWrite

/-! ### The statements -/

/-- Settles O55: one write and one read, by the row of either variant. -/
theorem saveMemoryReadsBackWhatWasWritten : Obligations.SaveMemoryReadsBackWhatWasWritten := by
  intro s offset d r w h
  have hr : s.mapper = .m1 ∧ r = .m1Sramr offset ∨ s.mapper = .m4 ∧ r = .m4Sramr offset :=
    h.imp (fun ⟨hm, hr, _⟩ => ⟨hm, hr⟩) (fun ⟨hm, hr, _⟩ => ⟨hm, hr⟩)
  have hw : s.mapper = .m1 ∧ w = .m1Sramw offset d ∨ s.mapper = .m4 ∧ w = .m4Sramw offset d :=
    h.imp (fun ⟨hm, _, hw⟩ => ⟨hm, hw⟩) (fun ⟨hm, _, hw⟩ => ⟨hm, hw⟩)
  have hback := s.byteAt_sram_write offset.toNat
  refine ⟨⟨_, exec_sramWrite hw, rfl, rfl, ?same, ?other, (exec_sramRead (by exact hr)).trans ?back⟩,
    exec_sramRead hr⟩
  case same => exact (hback _ d).trans (if_pos rfl)
  case other => exact fun o ho => (hback o d).trans (if_neg ho)
  case back =>
    rw [State.withAnswer_byteAt, hback, if_pos rfl]
    rfl

/-- Settles O56: RAM is written at the read's offset, ROM and unclaimed words answer `NotMine`. -/
theorem graphicsWritesReachOnlyRam : Obligations.GraphicsWritesReachOnlyRam := by
  intro s a d
  have hback := s.byteAt_chr_write (patternOffset s a)
  refine ⟨fun h => ?_, fun h => exec_mapPpuw_of_rom (decide_eq_false h) a d, fun _ _ _ => rfl⟩
  exact ⟨_, exec_mapPpuw_of_ram (chrIsRam_eq_true.2 h) a d, rfl, rfl, (hback _ d).trans (if_pos rfl),
    fun o ho => (hback o d).trans (if_neg ho)⟩

/-- Settles O57: each offset is taken modulo its storage's size; a save-memory offset has 13 bits. -/
theorem translatedOffsetsAreInsideTheStorage : Obligations.TranslatedOffsetsAreInsideTheStorage := by
  intro s hp
  exact ⟨fun a => programOffset_lt s a hp, fun a => chrSize_eq s.cart ▸ patternOffset_lt s a, fun o => o.isLt⟩

/-- Settles O58: a processor write by its three outcomes, the other words by their rows. -/
theorem busEventsCompleteAsTheTranslationSays : Obligations.BusEventsCompleteAsTheTranslationSays := by
  intro s
  refine ⟨fun a h => takeEvent_cpurWord h, fun a => takeEvent_ppurWord a, fun a d hapu => ?_,
    fun a d => takeEvent_ppuwWord a d⟩
  have hdone := cpuWriteDone (s := s) hapu d
  generalize mapCpuWrite s a = tr at hdone ⊢
  cases hdone with
  | notMine h => exact ⟨_, h, rfl, rfl, rfl, rfl, fun _ => (nomatch ·), (nomatch ·), fun _ => rfl⟩
  | handled m h => exact ⟨_, h, rfl, rfl, rfl, rfl, fun _ => (nomatch ·), fun _ => rfl, (nomatch ·)⟩
  | sram o h =>
    refine ⟨_, h, rfl, rfl, rfl, rfl, fun o' ho => ?_, (nomatch ·), (nomatch ·)⟩
    cases ho
    exact ⟨rfl, rfl⟩

/-- Settles O11: the state after reset is a fresh block with the default parameters. -/
theorem resetMeetsTheInvariant : Obligations.ResetMeetsTheInvariant :=
  ⟨freshBlock_inv .m4 defaultParams resetCartridge [] [] [] (by decide) (by decide), rfl,
    exec_reset_freshBlock .m4 defaultParams resetCartridge [] [] [], rfl⟩

/-- Settles O22: none of the six rows has an effect. -/
theorem ignoredWritesChangeNothing : Obligations.IgnoredWritesChangeNothing := by
  intro i s h
  simp only [List.mem_cons, List.not_mem_nil, or_false] at h
  rcases h with rfl | rfl | rfl | rfl | rfl | rfl <;> rfl

/-- Settles O26: the reset values, for each variant. -/
theorem resetEventRestoresTheTables : Obligations.ResetEventRestoresTheTables := by
  rintro ⟨params, cart, apu, map, prg, chr, sram, events, answer⟩
  cases map <;> rfl

end Sys2Proof.Machine
end
